-- ==== Sys2Proof/Word.lean ====
section
/-! DEFINITION. The bit-vector types of the block: bytes, register numbers and header words. -/

namespace Sys2Proof

/-- A byte: 8 bits, unsigned 0 to 255 (R4). -/
abbrev Byte := BitVec 8

/-- A register number 0 to 15 of the `REG` space (R45). -/
abbrev RegNum := BitVec 4

/-- The four header bytes written as one word, byte 0 in bits 31:24 (R61). -/
abbrev HeaderWord := BitVec 32

end Sys2Proof
end

