-- ==== Sys2Proof/Config.lean ====
section
/-! DEFINITION. What an implementation fixes (the parameters of R2) and the free values ("draws") of the spec. -/

namespace Sys2Proof

/-- The two admissible values of `TOO_SMALL_MAX`: "default 4", "admissible alternative 3" (R2, D16, C2). -/
inductive TooSmallMax where
  | three
  | four
deriving DecidableEq, Repr

/-- The number a `TooSmallMax` stands for. -/
def TooSmallMax.toNat : TooSmallMax → Nat
  | .three => 3
  | .four => 4

/-- The parameters of R2; the bus placement of a register, OPEN there, needs none (D9; log entry 22).
DESIGN CHOICE (log entry 1): the machine carries them beside its state, and no step changes them,
so that a claim about every state is a claim about every choice of them.
A width is held as what it has above its least admissible value, so that every value of the type is admissible
(DEDUCED, log entry 2: the least values are those of D5, D6 and D7). -/
structure Params where
  /-- `MAGIC0`: output byte 0. -/
  magic0 : Byte
  /-- `MAGIC1`: output byte 1. -/
  magic1 : Byte
  /-- `TOO_SMALL_MAX`: the largest input length rejected as TooSmall. -/
  tooSmallMax : TooSmallMax
  /-- `LEN_BITS - 14`: the width of `IN_LEN` and `ACTUAL` is "a parameter of at least 14" (D7). -/
  lenBitsAbove14 : Nat
  /-- `IN_ADDR_BITS - 13`: "13 bits is the least width" and "may be raised" (D5). -/
  inAddrBitsAbove13 : Nat
  /-- `OUT_ADDR_BITS - 14`: the largest output "needs 14 address bits" (D6). -/
  outAddrBitsAbove14 : Nat
deriving DecidableEq, Repr

/-- `LEN_BITS` (R2). -/
def Params.lenBits (p : Params) : Nat := 14 + p.lenBitsAbove14

/-- `IN_ADDR_BITS` (R2). -/
def Params.inAddrBits (p : Params) : Nat := 13 + p.inAddrBitsAbove13

/-- `OUT_ADDR_BITS` (R2). -/
def Params.outAddrBits (p : Params) : Nat := 14 + p.outAddrBitsAbove14

/-- The width of the data word of a register access: `max(32, LEN_BITS)` bits (R25). -/
def Params.dataBits (p : Params) : Nat := max 32 p.lenBits

/-- The defaults of R2: `LEN_BITS = 32`, `IN_ADDR_BITS = 13`, `OUT_ADDR_BITS = 14`.
PRESUMED (log entry 3): the spec itself marks `42 4D` as general knowledge, not sourced. -/
def Params.default : Params :=
  { magic0 := 0x42, magic1 := 0x4D, tooSmallMax := .four
    lenBitsAbove14 := 18, inAddrBitsAbove13 := 0, outAddrBitsAbove14 := 0 }

/-- FREE VALUE (R30, R173, R174, I8; log entry 7): the byte that a read of an address of `IN` that holds no value returns, after
`epoch` resets. It is the same for every such read, by the core (R42, "may be repeated with the same result") and by the host
(R51, "reads of `IN` are idempotent"), so that the outcome "is that of `convert` on a buffer with a drawn byte there" (R174). -/
opaque Config.inDraw (epoch address : Nat) : BitVec 8

/-- FREE VALUE (R145, R178, I11; log entry 8): the data word of `bits` bits that the `n`-th undefined host read returns when it reads a register. -/
opaque Config.regDraw (bits n : Nat) : BitVec bits

/-- FREE VALUE (R146, R177, I7; log entry 8): the byte that the `n`-th undefined host read returns when it reads `OUT`. -/
opaque Config.byteDraw (n : Nat) : BitVec 8

end Sys2Proof
end

