-- ==== Sys2Proof/Syntax.lean ====
section
/-! DEFINITION. The syntax: one constructor of `Instr` per row of spec/opcode_table.json, and the words the decoder reads. -/

namespace Sys2Proof

/-- The block's "instructions": the 6 transaction classes, 15 core operations and 6 host commands of R72 and R78.
The operands `u`, `w`, `h`, `d` are the header bytes 0 (ignored), 1 (width), 2 (height) and 3 (colour depth) of R61.
Addresses and lengths are numbers: their widths are parameters (R2), which `Instr.wellFormed` checks. -/
inductive Instr where
  /-- `T.TOOSMALL` (R72): the header is not read. -/
  | tTooSmall
  /-- `T.BADDIM.W0` (R72): the width byte is 0. -/
  | tBaddimW0 (u h d : Byte)
  /-- `T.BADDIM.H0` (R72): the height byte is 0. -/
  | tBaddimH0 (u w d : Byte)
  /-- `T.SHORT` (R72): fewer body bytes than the header demands. -/
  | tShort (u w h d : Byte)
  /-- `T.BADDEPTH` (R72): the depth byte is not 1. -/
  | tBaddepth (u w h d : Byte)
  /-- `T.CONVERT` (R72): an accepted input. -/
  | tConvert (u w h : Byte)
  /-- `P.CHKLEN` (R81). -/
  | pChklen
  /-- `P.LATCH` (R82). -/
  | pLatch
  /-- `P.CHKDIM` (R83). -/
  | pChkdim
  /-- `P.CHKDATA` (R84). -/
  | pChkdata
  /-- `P.CHKDEPTH` (R85). -/
  | pChkdepth
  /-- `K.GEOM` (R104). -/
  | kGeom
  /-- `F.FILEHDR` (R127). -/
  | fFilehdr
  /-- `F.INFOHDR` (R128). -/
  | fInfohdr
  /-- `F.PALETTE` (R129). -/
  | fPalette
  /-- `K.SHIFT` (R105). -/
  | kShift
  /-- `U.BIT` (R91): the first half of K.SHIFT, never selected on its own. -/
  | uBit
  /-- `K.FLUSH` (R106). -/
  | kFlush
  /-- `K.PAD` (R107). -/
  | kPad
  /-- `K.NEXTROW` (R108). -/
  | kNextrow
  /-- `S.FINISH` (R130). -/
  | sFinish
  /-- `H.WRIN a, v` (R141). -/
  | hWrin (a : Nat) (v : Byte)
  /-- `H.WRLEN n` (R142). -/
  | hWrlen (n : Nat)
  /-- `H.START` (R143): the other bits of the `CTRL` word are ignored. -/
  | hStart
  /-- `H.CLEAR` (R144): bits 31:2 of the `CTRL` word are ignored. -/
  | hClear
  /-- `H.RDREG r` (R145). -/
  | hRdreg (r : RegNum)
  /-- `H.RDOUT a` (R146). -/
  | hRdout (a : Nat)
deriving DecidableEq, Repr

/-- What selects among the four operations of phase PIX beside `PHASE` (R71). -/
structure LoopCounters where
  x     : Byte
  width : Byte
  nacc  : BitVec 3
  kb    : BitVec 6
  pbpr  : BitVec 6
deriving DecidableEq, Repr

/-- What the decoder reads: one constructor per `format` of spec/opcode_table.json (R72), with the word its pattern is
matched against and what the row's `condition` or `fields` need beside it. -/
inductive Fetch where
  /-- `OTBHDR`: the header word, with the length that the conditions name. -/
  | otbhdr (inLen : Nat) (word : HeaderWord)
  /-- `PHASE`: the 4-bit phase code, with the loop counters. -/
  | phase (code : BitVec 4) (counters : LoopCounters)
  /-- `INWR`: a byte write to `IN`. -/
  | inwr (a : Nat) (v : Byte)
  /-- `REGWR`: a write of a data word to a register number. -/
  | regwr (r : RegNum) (d : Nat)
  /-- `REGRD`: a read of a register number. -/
  | regrd (r : RegNum)
  /-- `OUTRD`: a byte read of `OUT`. -/
  | outrd (a : Nat)
deriving DecidableEq, Repr

end Sys2Proof
end

