-- ==== Sys2Proof/WellFormed.lean ====
section
/-! DEFINITION. Which terms of `Instr` are instructions: the operand conditions of the rows of spec/opcode_table.json. -/

namespace Sys2Proof

/-- `packedByteCount = ceil(width*height/8) = (width*height + 7) >> 3` (R5, R63). -/
def packedByteCount (width height : Nat) : Nat := (width * height + 7) >>> 3

/-- The conditions that R72 puts on the operands of a transaction class, and the operand ranges of R141, R142 and R146 under
the parameters `p`; every other operand is a bit vector of its field's width, so every value of it is legal.
`T.SHORT` needs some length above `TOO_SMALL_MAX` that is short; the shortest, `TOO_SMALL_MAX + 1`, decides.
DESIGN CHOICE (log entry 12): with both dimensions 0 "either row applies" (R72); the model takes `T.BADDIM.W0`, so a
well-formed `T.BADDIM.H0` has a nonzero width. -/
def Instr.wellFormed (p : Params) : Instr → Bool
  | .tTooSmall => true
  | .tBaddimW0 _ _ _ => true
  | .tBaddimH0 _ w _ => w != 0
  | .tShort _ w h _ =>
    w != 0 && h != 0 && decide (p.tooSmallMax.toNat + 1 - 4 < packedByteCount w.toNat h.toNat)
  | .tBaddepth _ w h d => w != 0 && h != 0 && d != 1
  | .tConvert _ w h => w != 0 && h != 0
  | .pChklen => true
  | .pLatch => true
  | .pChkdim => true
  | .pChkdata => true
  | .pChkdepth => true
  | .kGeom => true
  | .fFilehdr => true
  | .fInfohdr => true
  | .fPalette => true
  | .kShift => true
  | .uBit => true
  | .kFlush => true
  | .kPad => true
  | .kNextrow => true
  | .sFinish => true
  | .hWrin a _ => decide (a < 2 ^ p.inAddrBits)
  | .hWrlen n => decide (n < 2 ^ p.lenBits)
  | .hStart => true
  | .hClear => true
  | .hRdreg _ => true
  | .hRdout a => decide (a < 2 ^ p.outAddrBits)

end Sys2Proof
end

