-- ==== Sys2Proof/Decode.lean ====
section
/-! DEFINITION. The decoder, total on every word of every format and rejecting by name, and after it the encoder. -/

namespace Sys2Proof

/-! ## Decoder -/

/-- Why a word stands for no instruction. -/
inductive DecodeError where
  /-- `PHASE` 0 selects no operation and 12 to 15 are reserved (R71). -/
  | reservedPhase (code : BitVec 4)
  /-- A write to `CTRL` with bits 1:0 clear "does nothing" (R26, R69). -/
  | noCommand
  /-- A write to a register other than `CTRL` and `IN_LEN` is ignored (R25, R45, R74). -/
  | writeIgnored (r : RegNum)
  /-- An address or a data word that does not fit the width R2 gives it: it "cannot be expressed" (R141). -/
  | notExpressible (n : Nat)
deriving DecidableEq, Repr

/-- Byte `i` of a header word, byte 0 in bits 31:24 (R61). -/
def headerByte (word : HeaderWord) (i : Nat) : Byte := word.extractLsb' (24 - 8 * i) 8

/-- The header word of four bytes: `IN[0]·2^24 + IN[1]·2^16 + IN[2]·2^8 + IN[3]` (R72). -/
def headerWordOf (u w h d : Byte) : HeaderWord := u ++ w ++ h ++ d

/-- The transaction class of R72: "the first line that matches gives the class", in rising priority. -/
def decodeHeader (p : Params) (inLen : Nat) (word : HeaderWord) : Instr :=
  let u := headerByte word 0
  let w := headerByte word 1
  let h := headerByte word 2
  let d := headerByte word 3
  if inLen ≤ p.tooSmallMax.toNat then .tTooSmall
  else if w = 0 then .tBaddimW0 u h d
  else if h = 0 then .tBaddimH0 u w d
  else if inLen - 4 < packedByteCount w.toNat h.toNat then .tShort u w h d
  else if d ≠ 1 then .tBaddepth u w h d
  else .tConvert u w h

/-- Phase 10 selects "K.SHIFT if `X < WIDTH`; else K.FLUSH if `NACC != 0`; else K.PAD if `KB < PBPR`; else K.NEXTROW" (R71).
DEDUCED (log entry 13): this chain, which R135 names as the selection, also decides where `X > WIDTH` or `KB > PBPR`. -/
def decodePix (c : LoopCounters) : Instr :=
  if c.x < c.width then .kShift
  else if c.nacc ≠ 0 then .kFlush
  else if c.kb < c.pbpr then .kPad
  else .kNextrow

/-- The core operation that `PHASE` selects (R71). -/
def decodePhase (code : BitVec 4) (c : LoopCounters) : Except DecodeError Instr :=
  match code.toNat with
  | 1 => .ok .pChklen
  | 2 => .ok .pLatch
  | 3 => .ok .pChkdim
  | 4 => .ok .pChkdata
  | 5 => .ok .pChkdepth
  | 6 => .ok .kGeom
  | 7 => .ok .fFilehdr
  | 8 => .ok .fInfohdr
  | 9 => .ok .fPalette
  | 10 => .ok (decodePix c)
  | 11 => .ok .sFinish
  | _ => .error (.reservedPhase code)

/-- The command word of `CTRL`: bit 0 is START, whatever bit 1; bit 1 alone is CLEAR; bits 31:2 are ignored (R69). -/
def decodeCtrl (d : Nat) : Except DecodeError Instr :=
  if d.testBit 0 then .ok .hStart
  else if d.testBit 1 then .ok .hClear
  else .error .noCommand

/-- A register write: number 0 is `CTRL`, number 3 is `IN_LEN`, and no other write has an effect (R45).
A narrower register "takes the low bits on a write" (R25). -/
def decodeRegWrite (p : Params) (r : RegNum) (d : Nat) : Except DecodeError Instr :=
  if r = 0 then decodeCtrl d
  else if r = 3 then .ok (.hWrlen (d % 2 ^ p.lenBits))
  else .error (.writeIgnored r)

/-- An operand of at most `bits` bits, or a rejection by name. -/
def fits (bits n : Nat) (answer : Except DecodeError Instr) : Except DecodeError Instr :=
  if n < 2 ^ bits then answer else .error (.notExpressible n)

/-- The decoder: the instruction that the words of a format stand for under the parameters `p` (R72). -/
def decode (p : Params) : Fetch → Except DecodeError Instr
  | .otbhdr n word => .ok (decodeHeader p n word)
  | .phase code c => decodePhase code c
  | .inwr a v => fits p.inAddrBits a (.ok (.hWrin a v))
  | .regwr r d => fits p.dataBits d (decodeRegWrite p r d)
  | .regrd r => .ok (.hRdreg r)
  | .outrd a => fits p.outAddrBits a (.ok (.hRdout a))

/-! ## The rows of spec/opcode_table.json read by number -/

/-- The loop counters with which phase code 10 of the table stands for K.SHIFT: `X = 0`, `WIDTH = 1`. -/
def tableCounters : LoopCounters := { x := 0, width := 1, nacc := 0, kb := 0, pbpr := 0 }

/-- The length with which a header of the table is read: 8133 bytes, enough for every width and height (R3). -/
def tableLength : Nat := 8133

/-- The format that a table word of `nbits` bits is read in.
DESIGN CHOICE (log entry 17): the block's words do not say their format (the space, the direction and the register do),
so rows of different formats share words, and this function settles which row a bare number is read as. -/
def tableFetch (nbits w : Nat) : Option Fetch :=
  if 2 ^ nbits ≤ w then none
  else match nbits with
    | 8 =>
      if 1 ≤ w ∧ w ≤ 11 then some (.phase (BitVec.ofNat 4 w) tableCounters)
      else if w < 16 then some (.regrd (BitVec.ofNat 4 w))
      else some (.inwr 0 (BitVec.ofNat 8 w))
    | 16 => if w < 2 ^ 14 then some (.outrd w) else none
    | 32 =>
      if 1 ≤ w ∧ w ≤ 3 then some (.regwr 0 w)
      else some (.otbhdr tableLength (BitVec.ofNat 32 w))
    | _ => none

/-- The instruction the decoder reads from a table word of `nbits` bits, under the default parameters. -/
def decodeTableWord (nbits w : Nat) : Option Instr :=
  match tableFetch nbits w with
  | some f => (decode Params.default f).toOption
  | none => none

/-! ## Encoder -/

/-- The loop counters of phase 10 that select an operation, each condition of R71 met in the simplest way. -/
def countersFor (shift flush pad : Bool) : LoopCounters :=
  { x := 0, width := if shift then 1 else 0, nacc := if flush then 1 else 0, kb := 0, pbpr := if pad then 4 else 0 }

/-- The words of an instruction under the parameters `p`, from the patterns of R69, R71 and R72. A class row's word comes with
a length that meets the row's condition: 0 for `T.TOOSMALL`, the shortest length past the threshold for `T.SHORT`, and 8133,
enough for every width and height (R3), for the others. `U.BIT` has no encoding of its own (R91): its row repeats K.SHIFT's pattern.
DESIGN CHOICE (log entry 31): a term that is not well-formed has no words in the spec; this function, which is total, fills the same
patterns. -/
def encode (p : Params) : Instr → Fetch
  | .tTooSmall => .otbhdr 0 0
  | .tBaddimW0 u h d => .otbhdr 8133 (headerWordOf u 0 h d)
  | .tBaddimH0 u w d => .otbhdr 8133 (headerWordOf u w 0 d)
  | .tShort u w h d => .otbhdr (p.tooSmallMax.toNat + 1) (headerWordOf u w h d)
  | .tBaddepth u w h d => .otbhdr 8133 (headerWordOf u w h d)
  | .tConvert u w h => .otbhdr 8133 (headerWordOf u w h 1)
  | .pChklen => .phase 0b0001 (countersFor false false false)
  | .pLatch => .phase 0b0010 (countersFor false false false)
  | .pChkdim => .phase 0b0011 (countersFor false false false)
  | .pChkdata => .phase 0b0100 (countersFor false false false)
  | .pChkdepth => .phase 0b0101 (countersFor false false false)
  | .kGeom => .phase 0b0110 (countersFor false false false)
  | .fFilehdr => .phase 0b0111 (countersFor false false false)
  | .fInfohdr => .phase 0b1000 (countersFor false false false)
  | .fPalette => .phase 0b1001 (countersFor false false false)
  | .kShift => .phase 0b1010 (countersFor true false false)
  | .uBit => .phase 0b1010 (countersFor true false false)
  | .kFlush => .phase 0b1010 (countersFor false true false)
  | .kPad => .phase 0b1010 (countersFor false false true)
  | .kNextrow => .phase 0b1010 (countersFor false false false)
  | .sFinish => .phase 0b1011 (countersFor false false false)
  | .hWrin a v => .inwr a v
  | .hWrlen n => .regwr 3 n
  | .hStart => .regwr 0 1
  | .hClear => .regwr 0 2
  | .hRdreg r => .regrd r
  | .hRdout a => .outrd a

end Sys2Proof
end

