-- ==== Sys2Proof/Machine/State.lean ====
section
/-! DEFINITION. The state of the block as plain data, its value after reset, and the named reasons a step can stop. -/

namespace Sys2Proof.Machine

/-- `STATE`, 2 bits, all four codes named (R23, R70). -/
inductive RunState where
  /-- code 0: no transaction since reset or H.CLEAR -/
  | idle
  /-- code 1: a transaction is running -/
  | busy
  /-- code 2: the last transaction succeeded -/
  | done
  /-- code 3: the last transaction was rejected -/
  | error
deriving DecidableEq, Repr

/-- A buffer: the locations that hold a value, as (address, byte) pairs in strictly rising order of address.
An unlisted address holds no value (R30, R31). -/
abbrev Memory := List Host.Cell

/-- What may happen next at the block, from outside or by its own core (R139, R147, R170).
DESIGN CHOICE (log entry 4): the interleaving of the two agents and of reset is a list of these in `State.turns`. -/
inductive Turn where
  /-- The core takes its enabled step, if there is one (R135). -/
  | core
  /-- A whole transaction, H.START included, taken as one step: the transaction layer of R72 and R126 (log entry 10). -/
  | convert
  /-- The reset event (R170). -/
  | reset
  /-- The host writes byte `v` at address `a` of `IN` (R141). -/
  | inWrite (a : Nat) (v : Byte)
  /-- The host reads back address `a` of `IN` (R40). -/
  | inRead (a : Nat)
  /-- The host writes word `d` to register number `r` (R45). -/
  | regWrite (r : RegNum) (d : Nat)
  /-- The host reads register number `r` (R145). -/
  | regRead (r : RegNum)
  /-- The host reads address `a` of `OUT` (R146). -/
  | outRead (a : Nat)
deriving DecidableEq, Repr

/-- The state of one instance of the block (R10), then the model's own fields. -/
structure State where
  /-- `STATE` (R23) -/
  st       : RunState
  /-- `PHASE` (R21) -/
  phase    : BitVec 4
  /-- `ERR` (R24) -/
  err      : BitVec 3
  /-- `IN_LEN`, a number of `LEN_BITS` bits (R28, R48) -/
  inLen    : Nat
  /-- `WIDTH` (R11) -/
  width    : Byte
  /-- `HEIGHT` (R12) -/
  height   : Byte
  /-- `DEPTH` (R13) -/
  depth    : Byte
  /-- `EXPECTED` (R14) -/
  expected : BitVec 16
  /-- `ACTUAL`, a number of `LEN_BITS` bits (R15, R48) -/
  actual   : Nat
  /-- `OUT_LEN` (R29) -/
  outLen   : BitVec 14
  /-- `BPR` (R16) -/
  bpr      : BitVec 6
  /-- `PBPR` (R16) -/
  pbpr     : BitVec 6
  /-- `IMG` (R17) -/
  img      : BitVec 14
  /-- `FSIZE` (R17) -/
  fsize    : BitVec 14
  /-- `X` (R18) -/
  x        : Byte
  /-- `Y` (R18) -/
  y        : Byte
  /-- `KB` (R18) -/
  kb       : BitVec 6
  /-- `SIDX` (R19) -/
  sidx     : BitVec 16
  /-- `ACC` (R20) -/
  acc      : Byte
  /-- `NACC` (R20) -/
  nacc     : BitVec 3
  /-- `OADDR` (R22) -/
  oaddr    : BitVec 14
  /-- `IN` (R30) -/
  inMem    : Memory
  /-- `OUT` (R31) -/
  outMem   : Memory
  /-- MODEL's own: the parameters of R2, fixed for the machine (log entry 1). -/
  params   : Params
  /-- MODEL's own: what happens next, first turn first; with none left the core moves (log entry 4). -/
  turns    : List Turn
  /-- MODEL's own: the word the host's last read returned, a number of `max(32, LEN_BITS)` bits (R25; log entry 5). -/
  rdata    : Nat
  /-- MODEL's own: what U.BIT yielded when it was last executed on its own, `none` for `absent` (log entry 6). -/
  sbit     : Option Bool
  /-- MODEL's own: the number of resets so far, for the free bytes of `IN` (log entry 7). -/
  epoch    : Nat
  /-- MODEL's own: the number of undefined host reads so far, for their free values (log entry 8). -/
  draws    : Nat
deriving DecidableEq, Repr

/-- Why the machine stops with a fault. -/
inductive Fault where
  /-- Raised by a core turn in a state with `STATE = BUSY` and `PHASE` 0 or 12 to 15, which is unreachable; a model "may leave
  the step relation undefined there" (R135, I9; log entry 14). Safe: the machine stops. -/
  | reservedPhase (code : BitVec 4)
deriving DecidableEq, Repr

/-- Why the machine gives an instruction no meaning. -/
inductive Refusal where
  /-- Raised by no arm of this model: an instruction whose meaning is not written yet. Safe: the machine stops. -/
  | notModelled (mnemonic : String)
  /-- Raised by `T.CONVERT` with a width or height of 0, which no header decodes to: `encode` "is outside its domain and the
  spec gives it no meaning" there (R125, I14; log entry 15). Safe: the machine stops. -/
  | encodeOutsideDomain
deriving DecidableEq, Repr

/-- The state right after reset: every register 0, `STATE` IDLE, no location of a buffer holding a value (R34, R171, R173).
The model's own fields start empty (log entries 1, 4, 5, 6, 7, 8). -/
def State.reset : State :=
  { st := .idle, phase := 0, err := 0, inLen := 0
    width := 0, height := 0, depth := 0, expected := 0, actual := 0, outLen := 0
    bpr := 0, pbpr := 0, img := 0, fsize := 0
    x := 0, y := 0, kb := 0, sidx := 0, acc := 0, nacc := 0, oaddr := 0
    inMem := [], outMem := []
    params := Params.default, turns := [], rdata := 0, sbit := none, epoch := 0, draws := 0 }

end Sys2Proof.Machine
end

