-- ==== Sys2Proof/Machine/Operands.lean ====
section
/-! DEFINITION. The operand forms: field assembly, bit selection, the geometry, and the bytes the core reads from `IN`. -/

namespace Sys2Proof.Machine

/-! ## Assembly of output fields -/

/-- `le16(v)`: least significant byte first (R7). -/
def le16 (v : BitVec 16) : List Byte := [v.extractLsb' 0 8, v.extractLsb' 8 8]

/-- `le32(v)`: least significant byte first (R7). -/
def le32 (v : BitVec 32) : List Byte :=
  [v.extractLsb' 0 8, v.extractLsb' 8 8, v.extractLsb' 16 8, v.extractLsb' 24 8]

/-- A natural number as a 32-bit output field, zero-extended (R79).
DESIGN CHOICE (log entry 29): R7 defines `le32` below `2^32` and `le16` below `2^16` only; a larger number wraps. -/
def field32 (n : Nat) : List Byte := le32 (BitVec.ofNat 32 n)

/-- A natural number as a 16-bit output field, zero-extended (R79). -/
def field16 (n : Nat) : List Byte := le16 (BitVec.ofNat 16 n)

/-- `neg32(v) = 2^32 - v`, the two's complement of `-v` (R8).
PRESUMED (log entry 19): the spec marks two's complement as general knowledge.
DESIGN CHOICE (log entry 29): R8 defines it for `1 <= v <= 255` only; outside, the same expression is taken and wraps at 32 bits, so
`neg32 0` is 0. -/
def neg32 (v : Nat) : BitVec 32 := BitVec.ofNat 32 (2 ^ 32 - v)

/-! ## Bits -/

/-- Bit `i` of a most-significant-bit-first stream within its byte: bit position `7 - (i mod 8)` (R47). -/
def msbBit (b : Byte) (i : Nat) : Bool := b.getLsbD (7 - i % 8)

/-- The output bit of a source bit: the inverse, and 1 for an absent bit (R100). -/
def invertBit : Option Bool → Bool
  | some b => !b
  | none => true

/-! ## Geometry (R101)

DESIGN CHOICE (log entry 30): R101 defines the geometry for widths and heights from 1 to 255; outside, the same formulas are taken. -/

/-- `bytesPerRow = (width + 7) >> 3`. -/
def bytesPerRow (width : Nat) : Nat := (width + 7) >>> 3

/-- `paddedBytesPerRow = ((bytesPerRow + 3) >> 2) << 2`. -/
def paddedBytesPerRow (width : Nat) : Nat := ((bytesPerRow width + 3) >>> 2) <<< 2

/-- `imageDataSize = paddedBytesPerRow * height`. -/
def imageDataSize (width height : Nat) : Nat := paddedBytesPerRow width * height

/-- `fileSize = 62 + imageDataSize`. -/
def fileSize (width height : Nat) : Nat := 62 + imageDataSize width height

/-! ## Buffers -/

/-- What a location of a buffer holds: nothing where it is not listed. -/
def Memory.read : Memory → Nat → Option Byte
  | [], _ => none
  | (b, v) :: m, a => if a = b then some v else Memory.read m a

/-- What a read of address `a` of `IN` returns (R40, R42): the byte the host last wrote there, and a free value, the same for every
such read until reset, where it wrote none (R51, R173, R174; log entries 7 and 27). It depends on neither `STATE` nor `IN_LEN`, as a
host read of `IN` does not:
DEDUCED (log entry 20): R40 puts no condition of `STATE` on the host's reading, and R55 item 3 and I11 do not count `IN` among the
host reads that are draws while BUSY.
DESIGN CHOICE (log entry 26): at or above `IN_LEN`, where R30 says that a location holds no value and R40 that the host may read
back what it wrote, the read returns the byte the host wrote. -/
def readIn (s : State) (a : Nat) : Byte := (s.inMem.read a).getD (Config.inDraw s.epoch a)

/-- `MemRead(IN, a, 1)` by the core (R42). A location at or above `IN_LEN` "holds no value" (R30), and the core's read there, which
is never issued (R42), is a free value (log entry 25). -/
def inByte (s : State) (a : Nat) : Byte := if a < s.inLen then readIn s a else Config.inDraw s.epoch a

/-- The header word `IN[0]·2^24 + IN[1]·2^16 + IN[2]·2^8 + IN[3]` (R72).
Byte 0 only completes the printed word: no operation reads it and no outcome depends on it (R82; log entry 11). -/
def headerWord (s : State) : HeaderWord :=
  headerWordOf (inByte s 0) (inByte s 1) (inByte s 2) (inByte s 3)

/-- The input byte sequence that `IN` presents (R41), as far as an `IN` of the least capacity reaches:
`IN[0..min(IN_LEN, 2^13))`. No operation reads an address of 8133 or above (R42), so a larger `IN` presents no more. -/
def inBytes (s : State) : List Byte := (List.range (min s.inLen 8192)).map (inByte s)

/-- The bit that U.BIT yields: source bit `SIDX` of the body, or absent (`none`) beyond `IN_LEN` (R91). -/
def sourceBit (s : State) : Option Bool :=
  let a := 4 + s.sidx.toNat >>> 3
  if a < s.inLen then some (msbBit (inByte s a) s.sidx.toNat) else none

end Sys2Proof.Machine
end

