-- ==== Sys2Proof/Machine/Contract.lean ====
section
/-! DEFINITION. Layer 1: the pure functions on byte sequences that the operations compute (R80, R90, R100 to R103, R120 to R126).
Those of R102, R103 and R120 to R125 are meant for widths and heights from 1 to 255; outside, their values are the model's
(log entry 30). -/

namespace Sys2Proof.Machine

/-- The four rejections of `parse`, with the two counts the third one reports (R80, R150). -/
inductive Rejection where
  /-- code 1 (R151) -/
  | tooSmall
  /-- code 2 (R152) -/
  | invalidDimensions
  /-- code 3 (R153) -/
  | insufficientBitmapData (expected actual : Nat)
  /-- code 4 (R154) -/
  | unsupportedColorDepth
deriving DecidableEq, Repr

/-- The code of a rejection (R70). -/
def Rejection.code : Rejection → BitVec 3
  | .tooSmall => 1
  | .invalidDimensions => 2
  | .insufficientBitmapData _ _ => 3
  | .unsupportedColorDepth => 4

/-- A parsed input: D00's `OTBImage` with the raw trailing byte slice (R86). -/
structure OTBImage where
  width      : Nat
  height     : Nat
  colorDepth : Nat
  body       : List Byte
deriving DecidableEq, Repr

/-- `parse(buf)` (R80): the four checks in order. -/
def parse (p : Params) (buf : List Byte) : Except Rejection OTBImage :=
  if buf.length ≤ p.tooSmallMax.toNat then .error .tooSmall
  else match buf with
    | _ :: w :: h :: d :: body =>
      let expected := packedByteCount w.toNat h.toNat
      if w = 0 ∨ h = 0 then .error .invalidDimensions
      else if body.length < expected then .error (.insufficientBitmapData expected body.length)
      else if d ≠ 1 then .error .unsupportedColorDepth
      else .ok { width := w.toNat, height := h.toNat, colorDepth := d.toNat, body := body }
    | _ => .error .tooSmall

/-- `srcbit(body, i)` (R90): `none` is `absent`. -/
def srcbit (body : List Byte) (i : Nat) : Option Bool := (body[i >>> 3]?).map fun b => msbBit b i

/-- `outbit(body, width, y, x)` (R100). -/
def outbit (body : List Byte) (width y x : Nat) : Bool := invertBit (srcbit body (y * width + x))

/-- Bit `7 - j` of a row byte: the output bit of pixel `8*k + j`, and 0 at or beyond `width` (R102). -/
def rowbit (body : List Byte) (width y k j : Nat) : Bool :=
  decide (8 * k + j < width) && outbit body width y (8 * k + j)

/-- `rowbyte(body, width, y, k)` (R102): eight row bits, pixel `8*k` in bit 7; a padding byte is 0. -/
def rowbyte (body : List Byte) (width y k : Nat) : Byte :=
  if k ≥ bytesPerRow width then 0
  else (List.range 8).foldl (fun v j => v ||| (BitVec.ofBool (rowbit body width y k j)).setWidth 8 <<< (7 - j)) 0

/-- Row `y` of the pixel data: its `paddedBytesPerRow` bytes (R103). -/
def rowBytes (body : List Byte) (width y : Nat) : List Byte :=
  (List.range (paddedBytesPerRow width)).map (rowbyte body width y)

/-- `pixeldata(width, height, body)` (R103): the rows from the top down. -/
def pixeldata (width height : Nat) (body : List Byte) : List Byte :=
  (List.range height).flatMap (rowBytes body width)

/-- The 14 bytes of the file header, given the file size (R122). -/
def fileHeader (p : Params) (size : Nat) : List Byte :=
  [p.magic0, p.magic1] ++ field32 size ++ field32 0 ++ field32 62

/-- The 40 bytes of the info header, given the image data size (R123). -/
def infoHeader (width height image : Nat) : List Byte :=
  field32 40 ++ field32 width ++ le32 (neg32 height) ++ field16 1 ++ field16 1
    ++ field32 0 ++ field32 image ++ field32 2835 ++ field32 2835 ++ field32 2 ++ field32 2

/-- The 8 bytes of the colour table: the index-0 quad, then the index-1 quad (R124). -/
def palette : List Byte := [0x00, 0x00, 0x00, 0x00, 0xFF, 0xFF, 0xFF, 0x00]

/-- `header62(width, height)` (R120). -/
def header62 (p : Params) (width height : Nat) : List Byte :=
  fileHeader p (fileSize width height) ++ infoHeader width height (imageDataSize width height) ++ palette

/-- `encode(width, height, body)` (R125).
DESIGN CHOICE (log entry 30): with a width or height of 0 or above 255 R125, I14 and N17 give it no meaning; this function, which is
total, takes the same formulas there. `convert` never calls it so, and T.CONVERT refuses a zero dimension (log entry 15). -/
def encodeImage (p : Params) (width height : Nat) (body : List Byte) : List Byte :=
  header62 p width height ++ pixeldata width height body

/-- `convert(buf)` (R126): the whole block as one function. -/
def convert (p : Params) (buf : List Byte) : Except Rejection (List Byte) :=
  match parse p buf with
  | .error r => .error r
  | .ok image => .ok (encodeImage p image.width image.height image.body)

end Sys2Proof.Machine
end

