-- ==== Sys2Proof/Machine/Flags.lean ====
section
/-! DEFINITION. The status word, the two level outputs, the four checks and the register reads. -/

namespace Sys2Proof.Machine

/-- The 2-bit code of `STATE` (R70). -/
def RunState.code : RunState → BitVec 2
  | .idle => 0
  | .busy => 1
  | .done => 2
  | .error => 3

/-- `STATUS`: bits 1:0 `STATE`, bits 7:4 `PHASE`, all others 0 (R27). -/
def statusWord (s : State) : BitVec 32 := (s.phase.setWidth 32 <<< 4) ||| s.st.code.setWidth 32

/-- The level output `done` (R32). -/
def doneOutput (s : State) : Bool := s.st == .done

/-- The level output `err` (R32). -/
def errOutput (s : State) : Bool := s.st == .error

/-- `STATE != BUSY`: the host owns the buffers (R55). -/
def hostOwns (s : State) : Bool := s.st != .busy

/-- Check 1 (R81): `IN_LEN <= TOO_SMALL_MAX`. -/
def isTooSmall (s : State) : Bool := s.inLen ≤ s.params.tooSmallMax.toNat

/-- Check 2 (R83): `WIDTH = 0` or `HEIGHT = 0`. -/
def hasBadDimension (s : State) : Bool := s.width == 0 || s.height == 0

/-- The body length the header demands, `e` of R84. -/
def expectedBytes (s : State) : Nat := packedByteCount s.width.toNat s.height.toNat

/-- The body length there is, `a = IN_LEN - 4` of R84. -/
def actualBytes (s : State) : Nat := s.inLen - 4

/-- Check 3 (R84): `a < e`. -/
def isShort (s : State) : Bool := actualBytes s < expectedBytes s

/-- Check 4 (R85): `DEPTH != 1`. -/
def hasBadDepth (s : State) : Bool := s.depth != 1

/-- The value of a register read, zero-extended; `none` where the spec says "draw" (R145). -/
def readReg (s : State) (r : RegNum) : Option Nat :=
  if r = 1 then some (statusWord s).toNat
  else if r = 0 ∨ 10 ≤ r.toNat then some 0
  else if hostOwns s then
    match r.toNat with
    | 2 => some s.err.toNat
    | 3 => some s.inLen
    | 4 => some s.width.toNat
    | 5 => some s.height.toNat
    | 6 => some s.depth.toNat
    | 7 => some s.expected.toNat
    | 8 => some s.actual
    | _ => some s.outLen.toNat
  else none

/-- The value of a read of `OUT`; `none` where the location has no architectural value (R31, R146). -/
def readOut (s : State) (a : Nat) : Option Byte :=
  if s.st = .done ∧ a < s.outLen.toNat then s.outMem.read a else none

end Sys2Proof.Machine
end

