-- ==== Sys2Proof/Machine/Ops.lean ====
section
/-! DEFINITION. The named operations: buffer writes, the sequencer's move, Reject and what leaves a rejection, host reads, reset. -/

namespace Sys2Proof.Machine

/-! ## Buffers -/

/-- Store byte `v` at address `a`, keeping the addresses strictly rising. -/
def Memory.write : Memory → Nat → Byte → Memory
  | [], a, v => [(a, v)]
  | (b, w) :: m, a, v =>
    if a < b then (a, v) :: (b, w) :: m
    else if a = b then (a, v) :: m
    else (b, w) :: Memory.write m a v

/-- `MemWrite(OUT, a, n, s)`: byte `s[j]` at address `a + j` (R44). -/
def Memory.writeBlock (m : Memory) (a : Nat) : List Byte → Memory
  | [] => m
  | v :: vs => (Memory.write m a v).writeBlock (a + 1) vs

/-- The canonical form of a buffer: its addresses strictly rise. (An unlisted location holds no value, and a listed one
always does, so no entry equals what an unlisted address reads as.) -/
def Memory.wf : Memory → Bool
  | [] => true
  | [_] => true
  | (a, _) :: (b, w) :: m => a < b && Memory.wf ((b, w) :: m)

/-- Every listed address is below `bound`. -/
def Memory.within (bound : Nat) (m : Memory) : Bool := m.all fun c => c.1 < bound

/-- Store byte `v` at address `a` of `IN`, if there is such a location: an address of more than `IN_ADDR_BITS` bits
"cannot be expressed" (R141), and storing there does nothing (log entry 28). -/
def State.putIn (s : State) (a : Nat) (v : Byte) : State :=
  if a < 2 ^ s.params.inAddrBits then { s with inMem := s.inMem.write a v } else s

/-- Write `IN_LEN`, which takes the low `LEN_BITS` bits of what is written (R25, R28). -/
def State.putLength (s : State) (n : Nat) : State := { s with inLen := n % 2 ^ s.params.lenBits }

/-- Store a byte sequence in `OUT` (R44). -/
def State.putOut (s : State) (a : Nat) (bytes : List Byte) : State :=
  { s with outMem := s.outMem.writeBlock a bytes }

/-- Store one byte at `OADDR` and move `OADDR` and `KB` to the next byte of the row (R105, R106, R107). -/
def State.emitByte (s : State) (v : Byte) : State :=
  { s.putOut s.oaddr.toNat [v] with oaddr := s.oaddr + 1, kb := s.kb + 1 }

/-! ## Sequencer -/

/-- `PHASE <- p` (R9). -/
def State.setPhase (s : State) (p : BitVec 4) : State := { s with phase := p }

/-- `Reject(code)` (R156), the block's one way of taking an exception: `ERR`, `STATE` and `PHASE` are written, "nothing else
changes", nothing is saved and there is no handler. -/
def State.reject (s : State) (code : BitVec 3) : State :=
  { s with err := code, st := .error, phase := 0 }

/-- Every result and internal register 0: the list of R143. -/
def State.clearRegs (s : State) : State :=
  { s with
    width := 0, height := 0, depth := 0, expected := 0, actual := 0, outLen := 0
    bpr := 0, pbpr := 0, img := 0, fsize := 0
    x := 0, y := 0, kb := 0, sidx := 0, acc := 0, nacc := 0, oaddr := 0 }

/-- An accepted H.START (R143): what leaves IDLE, DONE or ERROR for a new transaction (R158). -/
def State.begin (s : State) : State :=
  { s.clearRegs with err := 0, phase := 1, st := .busy }

/-- An accepted H.CLEAR (R144): what leaves DONE or ERROR for IDLE (R158). -/
def State.toIdle (s : State) : State :=
  { s.clearRegs with err := 0, phase := 0, st := .idle }

/-- The reset event (R170, R171, R173): every register 0, no location of a buffer holding a value, also while BUSY (R172).
The machine's parameters and what belongs to the outside (turns, read data, the counter of host reads) stay (log entry 21); the
model's `epoch` counts the reset, so that the free bytes of `IN` are drawn anew (log entry 7). -/
def State.resetBlock (s : State) : State :=
  { State.reset with
    params := s.params, turns := s.turns, rdata := s.rdata, sbit := s.sbit, epoch := s.epoch + 1, draws := s.draws }

/-! ## Host reads -/

/-- A host read returns a word. -/
def State.answer (s : State) (v : Nat) : State := { s with rdata := v }

/-- A host register read returns the register, or a free value where the spec says "draw" (R145). -/
def State.answerReg (s : State) : Option Nat → State
  | some v => s.answer v
  | none => { s.answer (Config.regDraw s.params.dataBits s.draws).toNat with draws := s.draws + 1 }

/-- A host byte read returns the byte, or a free value where the location has no architectural value (R146). -/
def State.answerByte (s : State) : Option Byte → State
  | some v => s.answer v.toNat
  | none => { s.answer (Config.byteDraw s.draws).toNat with draws := s.draws + 1 }

end Sys2Proof.Machine
end

