-- ==== Sys2Proof/Machine/Formatter.lean ====
section
/-! DEFINITION. Stage F, the bitmap container formatter (R127 to R129), and S.FINISH (R130). -/

namespace Sys2Proof.Machine

/-- `F.FILEHDR` (R127): `OUT[0..14)`. -/
def execFFilehdr (s : State) : Host.Outcome State Fault Refusal :=
  .next ({ s.putOut 0 (fileHeader s.params s.fsize.toNat) with oaddr := 14 }.setPhase 8)

/-- `F.INFOHDR` (R128): `OUT[14..54)`. -/
def execFInfohdr (s : State) : Host.Outcome State Fault Refusal :=
  .next ({ s.putOut 14 (infoHeader s.width.toNat s.height.toNat s.img.toNat) with oaddr := 54 }.setPhase 9)

/-- `F.PALETTE` (R129): `OUT[54..62)`. -/
def execFPalette (s : State) : Host.Outcome State Fault Refusal :=
  .next ({ s.putOut 54 palette with oaddr := 62 }.setPhase 10)

/-- `S.FINISH` (R130): the result is published and handed to the host (R55 item 4). -/
def execSFinish (s : State) : Host.Outcome State Fault Refusal :=
  .next ({ s with outLen := s.fsize, st := .done }.setPhase 0)

end Sys2Proof.Machine
end

