-- ==== Sys2Proof/Machine/HostCommands.lean ====
section
/-! DEFINITION. The host commands (R141 to R146): every one is performed or ignored, and none stops the machine (R147). -/

namespace Sys2Proof.Machine

/-- A command that is performed when `STATE != BUSY` and ignored while BUSY (R55, R176, R179). -/
def whenHostOwns (s performed : State) : Host.Outcome State Fault Refusal :=
  .next (if hostOwns s then performed else s)

/-- `H.WRIN a, v` (R141). -/
def execHWrin (a : Nat) (v : Byte) (s : State) : Host.Outcome State Fault Refusal :=
  whenHostOwns s (s.putIn a v)

/-- `H.WRLEN n` (R142). -/
def execHWrlen (n : Nat) (s : State) : Host.Outcome State Fault Refusal :=
  whenHostOwns s (s.putLength n)

/-- `H.START` (R143). -/
def execHStart (s : State) : Host.Outcome State Fault Refusal :=
  whenHostOwns s s.begin

/-- `H.CLEAR` (R144). -/
def execHClear (s : State) : Host.Outcome State Fault Refusal :=
  whenHostOwns s s.toIdle

/-- `H.RDREG r` (R145). -/
def execHRdreg (r : RegNum) (s : State) : Host.Outcome State Fault Refusal :=
  .next (s.answerReg (readReg s r))

/-- `H.RDOUT a` (R146). -/
def execHRdout (a : Nat) (s : State) : Host.Outcome State Fault Refusal :=
  .next (s.answerByte (readOut s a))

end Sys2Proof.Machine
end

