-- ==== Sys2Proof/Machine/Parser.lean ====
section
/-! DEFINITION. Stage P, the header parser and validator (R81 to R85). -/

namespace Sys2Proof.Machine

/-- `P.CHKLEN` (R81): check 1, TooSmall. -/
def execPChklen (s : State) : Host.Outcome State Fault Refusal :=
  .next (if isTooSmall s then s.reject 1 else s.setPhase 2)

/-- `P.LATCH` (R82): `WIDTH`, `HEIGHT`, `DEPTH` from input bytes 1, 2, 3. -/
def execPLatch (s : State) : Host.Outcome State Fault Refusal :=
  .next ({ s with width := inByte s 1, height := inByte s 2, depth := inByte s 3 }.setPhase 3)

/-- `P.CHKDIM` (R83): check 2, InvalidDimensions. -/
def execPChkdim (s : State) : Host.Outcome State Fault Refusal :=
  .next (if hasBadDimension s then s.reject 2 else s.setPhase 4)

/-- The two counts of check 3, written whether it passes or not (R84). -/
def latchCounts (s : State) : State :=
  { s with expected := BitVec.ofNat 16 (expectedBytes s), actual := actualBytes s }

/-- `P.CHKDATA` (R84): check 3, InsufficientBitmapData. -/
def execPChkdata (s : State) : Host.Outcome State Fault Refusal :=
  .next (if isShort s then (latchCounts s).reject 3 else (latchCounts s).setPhase 5)

/-- `P.CHKDEPTH` (R85): check 4, UnsupportedColorDepth. -/
def execPChkdepth (s : State) : Host.Outcome State Fault Refusal :=
  .next (if hasBadDepth s then s.reject 4 else s.setPhase 6)

end Sys2Proof.Machine
end

