-- ==== Sys2Proof/Machine/Repacker.lean ====
section
/-! DEFINITION. Stage K, the row-padded bit-repacker (R104 to R108). -/

namespace Sys2Proof.Machine

/-- The four geometry registers for the latched `WIDTH` and `HEIGHT` (R104). -/
def latchGeometry (s : State) : State :=
  { s with
    bpr := BitVec.ofNat 6 (bytesPerRow s.width.toNat)
    pbpr := BitVec.ofNat 6 (paddedBytesPerRow s.width.toNat)
    img := BitVec.ofNat 14 (imageDataSize s.width.toNat s.height.toNat)
    fsize := BitVec.ofNat 14 (fileSize s.width.toNat s.height.toNat) }

/-- `K.GEOM` (R104). -/
def execKGeom (s : State) : Host.Outcome State Fault Refusal :=
  .next ((latchGeometry s).setPhase 7)

/-- `((ACC << 1) | o) & 0xFF`: the new bit enters at bit 0 (R105). -/
def shiftIn (acc : Byte) (o : Bool) : Byte := (acc <<< 1) ||| (BitVec.ofBool o).setWidth 8

/-- `X <- X + 1; SIDX <- SIDX + 1` (R105). -/
def nextPixel (s : State) : State := { s with x := s.x + 1, sidx := s.sidx + 1 }

/-- `ACC <- 0; NACC <- 0` (R105, R106). -/
def emptyAcc (s : State) : State := { s with acc := 0, nacc := 0 }

/-- `K.SHIFT` (R105): U.BIT, inversion, and on the eighth bit the write of the byte. -/
def execKShift (s : State) : Host.Outcome State Fault Refusal :=
  let acc := shiftIn s.acc (invertBit (sourceBit s))
  .next
    (if s.nacc = 7 then (emptyAcc ((nextPixel s).emitByte acc)).setPhase 10
     else { nextPixel s with acc := acc, nacc := s.nacc + 1 }.setPhase 10)

/-- `K.FLUSH` (R106): the partly filled byte, its pixel bits moved to the top and zeros below. -/
def execKFlush (s : State) : Host.Outcome State Fault Refusal :=
  .next ((emptyAcc (s.emitByte (s.acc <<< (8 - s.nacc.toNat)))).setPhase 10)

/-- `K.PAD` (R107): one `00` byte. -/
def execKPad (s : State) : Host.Outcome State Fault Refusal :=
  .next ((s.emitByte 0).setPhase 10)

/-- `K.NEXTROW` (R108): the next row, or FIN after the last. -/
def execKNextrow (s : State) : Host.Outcome State Fault Refusal :=
  .next ({ s with y := s.y + 1, x := 0, kb := 0 }.setPhase (if s.y + 1 = s.height then 11 else 10))

end Sys2Proof.Machine
end

