-- ==== Sys2Proof/Machine/Transaction.lean ====
section
/-! DEFINITION. The transaction classes (R72): each takes the whole transaction it names as one step, from the accepted H.START
to DONE or ERROR. Log entry 10: the class rows are a second layer over the core operations, and like H.START they are ignored
while BUSY. Header byte 0 has no effect (R73). -/

namespace Sys2Proof.Machine

/-- The registers after P.LATCH, from the header bytes of the class (R82). -/
def withHeader (w h d : Byte) (s : State) : State := { s with width := w, height := h, depth := d }

/-- `T.TOOSMALL` (R72, R151): ERROR code 1; the header is not read. -/
def execTTooSmall (s : State) : Host.Outcome State Fault Refusal :=
  whenHostOwns s (s.begin.reject 1)

/-- `T.BADDIM.W0` (R72, R152): ERROR code 2 with the header latched. -/
def execTBaddimW0 (_u h d : Byte) (s : State) : Host.Outcome State Fault Refusal :=
  whenHostOwns s ((withHeader 0 h d s.begin).reject 2)

/-- `T.BADDIM.H0` (R72, R152): ERROR code 2 with the header latched. -/
def execTBaddimH0 (_u w d : Byte) (s : State) : Host.Outcome State Fault Refusal :=
  whenHostOwns s ((withHeader w 0 d s.begin).reject 2)

/-- `T.SHORT` (R72, R153): ERROR code 3 with the header and the two counts latched. -/
def execTShort (_u w h d : Byte) (s : State) : Host.Outcome State Fault Refusal :=
  whenHostOwns s ((latchCounts (withHeader w h d s.begin)).reject 3)

/-- `T.BADDEPTH` (R72, R154): ERROR code 4 with the header and the two counts latched. -/
def execTBaddepth (_u w h d : Byte) (s : State) : Host.Outcome State Fault Refusal :=
  whenHostOwns s ((latchCounts (withHeader w h d s.begin)).reject 4)

/-- The internal registers at the end of an accepted transaction (R149): `Y = HEIGHT`, `SIDX = WIDTH*HEIGHT`, `OADDR = FSIZE`,
and `X`, `KB`, `ACC`, `NACC` 0 as H.START left them. -/
def endOfPixels (s : State) : State :=
  { s with y := s.height, sidx := BitVec.ofNat 16 (s.width.toNat * s.height.toNat), oaddr := s.fsize }

/-- `T.CONVERT` (R72, R125, R126): DONE with `OUT[0..OUT_LEN) = encode(w, h, IN[4..IN_LEN))` and the registers of R148 and R149.
With `w = 0` or `h = 0`, which no header decodes to, `encode` is outside its domain (R125; log entry 15). -/
def execTConvert (_u w h : Byte) (s : State) : Host.Outcome State Fault Refusal :=
  if w = 0 ∨ h = 0 then .refused .encodeOutsideDomain
  else
    let t := endOfPixels (latchGeometry (latchCounts (withHeader w h 1 s.begin)))
    let bytes := encodeImage s.params w.toNat h.toNat ((inBytes s.begin).drop 4)
    whenHostOwns s { t.putOut 0 bytes with outLen := t.fsize, st := .done, phase := 0 }

end Sys2Proof.Machine
end

