-- ==== Sys2Proof/Machine/Unpacker.lean ====
section
/-! DEFINITION. Stage U, the bit-unpacker (R91). -/

namespace Sys2Proof.Machine

/-- `U.BIT` (R91): yields source bit `SIDX` or `absent`, and writes no register and no buffer.
Inside K.SHIFT the yielded bit is consumed in the same step; executed on its own it is left in the model's `sbit`
(DESIGN CHOICE, log entry 6). -/
def execUBit (s : State) : Host.Outcome State Fault Refusal :=
  .next { s with sbit := sourceBit s }

end Sys2Proof.Machine
end

