-- ==== Sys2Proof/Machine/Dispatch.lean ====
section
/-! DEFINITION. The dispatch: one arm per constructor of Instr. -/

namespace Sys2Proof.Machine

def exec (i : Instr) (s : State) : Host.Outcome State Fault Refusal :=
  match i with
  -- transaction classes (R72)
  | .tTooSmall => Sys2Proof.Machine.execTTooSmall s
  | .tBaddimW0 u h d => Sys2Proof.Machine.execTBaddimW0 u h d s
  | .tBaddimH0 u w d => Sys2Proof.Machine.execTBaddimH0 u w d s
  | .tShort u w h d => Sys2Proof.Machine.execTShort u w h d s
  | .tBaddepth u w h d => Sys2Proof.Machine.execTBaddepth u w h d s
  | .tConvert u w h => Sys2Proof.Machine.execTConvert u w h s
  -- core operations (R78)
  | .pChklen => Sys2Proof.Machine.execPChklen s
  | .pLatch => Sys2Proof.Machine.execPLatch s
  | .pChkdim => Sys2Proof.Machine.execPChkdim s
  | .pChkdata => Sys2Proof.Machine.execPChkdata s
  | .pChkdepth => Sys2Proof.Machine.execPChkdepth s
  | .kGeom => Sys2Proof.Machine.execKGeom s
  | .fFilehdr => Sys2Proof.Machine.execFFilehdr s
  | .fInfohdr => Sys2Proof.Machine.execFInfohdr s
  | .fPalette => Sys2Proof.Machine.execFPalette s
  | .kShift => Sys2Proof.Machine.execKShift s
  | .uBit => Sys2Proof.Machine.execUBit s
  | .kFlush => Sys2Proof.Machine.execKFlush s
  | .kPad => Sys2Proof.Machine.execKPad s
  | .kNextrow => Sys2Proof.Machine.execKNextrow s
  | .sFinish => Sys2Proof.Machine.execSFinish s
  -- host commands (R141 to R146)
  | .hWrin a v => Sys2Proof.Machine.execHWrin a v s
  | .hWrlen n => Sys2Proof.Machine.execHWrlen n s
  | .hStart => Sys2Proof.Machine.execHStart s
  | .hClear => Sys2Proof.Machine.execHClear s
  | .hRdreg r => Sys2Proof.Machine.execHRdreg r s
  | .hRdout a => Sys2Proof.Machine.execHRdout a s

end Sys2Proof.Machine
end

