-- ==== Sys2Proof/Machine/Fetch.lean ====
section
/-! DEFINITION. Where each agent's next instruction comes from, what a word that is no instruction does, and placing a word. -/

namespace Sys2Proof.Machine

/-- The core's next operation stands in `PHASE` and the loop counters (R21, R135). -/
def coreFetch (s : State) : Fetch :=
  .phase s.phase { x := s.x, width := s.width, nacc := s.nacc, kb := s.kb, pbpr := s.pbpr }

/-- The transaction layer reads its class from the length and the header as the transaction finds them after H.START (R72). -/
def classFetch (s : State) : Fetch :=
  .otbhdr s.begin.inLen (headerWord s.begin)

/-- A word that stands for no instruction: a reserved phase stops the core (log entry 14); a register write without effect is
ignored (R26, R45), and so is an access that cannot be expressed: every command is "either performed or ignored" (R147).
DESIGN CHOICE (log entry 28): such an access, which the bus cannot carry, stands for no access at all. -/
def onDecodeError (e : DecodeError) (s : State) : Host.Outcome State Fault Refusal :=
  match e with
  | .reservedPhase code => .fault (.reservedPhase code)
  | .noCommand => .next s
  | .writeIgnored _ => .next s
  | .notExpressible _ => .next s

/-- The host reads `IN` back (R40), an access that is no row of the opcode table.
It changes nothing but the returned word, and a second read returns the same byte (R51).
An address that cannot be expressed is no access (log entry 28). -/
def hostReadBack (a : Nat) (s : State) : State :=
  if a < 2 ^ s.params.inAddrBits then s.answer (readIn s a).toNat else s

/-- The input bytes of a header word, placed at `IN[0..4)`. -/
def placeHeader (word : HeaderWord) (s : State) : State :=
  { s with inMem := s.inMem.writeBlock 0 [headerByte word 0, headerByte word 1, headerByte word 2, headerByte word 3] }

/-- The state with a word placed where the next step reads it: the phase (with the loop counters in phase 10), a host turn, or
an input header with its length. -/
def placeFetch (f : Fetch) (s : State) : State :=
  match f with
  | .phase code c =>
    let t := { s with st := .busy, phase := code, turns := .core :: s.turns }
    if code = 10 then { t with x := c.x, width := c.width, nacc := c.nacc, kb := c.kb, pbpr := c.pbpr } else t
  | .otbhdr n word => { placeHeader word s with inLen := n, turns := .convert :: s.turns }
  | .inwr a v => { s with turns := .inWrite a v :: s.turns }
  | .regwr r d => { s with turns := .regWrite r d :: s.turns }
  | .regrd r => { s with turns := .regRead r :: s.turns }
  | .outrd a => { s with turns := .outRead a :: s.turns }

end Sys2Proof.Machine
end

