-- ==== Sys2Proof/Machine/Step.lean ====
section
/-! DEFINITION. One step of the block: the next turn is taken; with no turn left the core moves. -/

namespace Sys2Proof.Machine

/-- Run the instruction a word stands for. -/
def runFetch (f : Fetch) (s : State) : Host.Outcome State Fault Refusal :=
  match decode s.params f with
  | .ok i => exec i s
  | .error e => onDecodeError e s

/-- The core takes its one enabled operation while BUSY, and no step otherwise (R135, R149). -/
def coreTurn (s : State) : Host.Outcome State Fault Refusal :=
  if s.st = .busy then runFetch (coreFetch s) s else .next s

/-- What one turn does. -/
def takeTurn (t : Turn) (s : State) : Host.Outcome State Fault Refusal :=
  match t with
  | .core => coreTurn s
  | .convert => runFetch (classFetch s) s
  | .reset => .next s.resetBlock
  | .inWrite a v => runFetch (.inwr a v) s
  | .inRead a => .next (hostReadBack a s)
  | .regWrite r d => runFetch (.regwr r d) s
  | .regRead r => runFetch (.regrd r) s
  | .outRead a => runFetch (.outrd a) s

/-- One step: the first turn is taken off the list and runs; with none left the core moves (R139). -/
def step (s : State) : Host.Outcome State Fault Refusal :=
  match s.turns with
  | [] => coreTurn s
  | t :: ts => takeTurn t { s with turns := ts }

/-- `s` with the instruction that the table word stands for placed where `step` reads its next instruction (log entry 17). -/
def State.withFetchWord (s : State) (nbits w : Nat) : State :=
  match tableFetch nbits w with
  | some f => placeFetch f s
  | none => s

end Sys2Proof.Machine
end

