-- ==== Sys2Proof/Machine/Script.lean ====
section
/-! DEFINITION. The notation for inputs and host scripts (R76, R77), as lists of bytes and of turns. -/

namespace Sys2Proof.Machine

/-- The short form `otb(u, w, h, d; b0 b1 ...)` of an input buffer (R76).
DESIGN CHOICE (log entry 31): a header number above 255 is no byte, and R76 gives the notation no meaning there; this function, which
is total, takes it modulo 256. -/
def otb (u w h d : Nat) (body : List Byte) : List Byte :=
  [BitVec.ofNat 8 u, BitVec.ofNat 8 w, BitVec.ofNat 8 h, BitVec.ofNat 8 d] ++ body

/-- `WRIN a, b0; WRIN a+1, b1; ...` (R77).
DESIGN CHOICE (log entry 28): from address `2^IN_ADDR_BITS` on, where a WRIN "cannot be expressed" (R141), the block passes the
write over, so that the excess of a longer input is not stored (D33). -/
def writeScript (a : Nat) : List Byte → List Turn
  | [] => []
  | b :: bs => .inWrite a b :: writeScript (a + 1) bs

/-- `WRLEN n` (R77): a write of register number 3 (R142). -/
def lengthTurn (n : Nat) : Turn := .regWrite 3 n

/-- `START` (R77): a write of `CTRL` with bit 0 set (R143). -/
def startTurn : Turn := .regWrite 0 1

/-- `CLEAR` (R77): a write of `CTRL` with bit 1 set and bit 0 clear (R144). -/
def clearTurn : Turn := .regWrite 0 2

/-- The pseudo-command `LOAD b0 b1 ... b(n-1)` (R77).
For `n` of `2^LEN_BITS` and more, which is outside the operands of R142, its last turn is a register write like any other: it takes
the low bits (R25), or is passed over where the word cannot be expressed (log entry 28). -/
def loadScript (bytes : List Byte) : List Turn := writeScript 0 bytes ++ [lengthTurn bytes.length]

end Sys2Proof.Machine
end

