-- ==== Sys2Proof/Safety.lean ====
section
/-! DEFINITION. What counts as a safe run: runs, what belongs to the block, step counts, and the invariants in which claims are stated. -/

namespace Sys2Proof.Machine

/-! ## Runs -/

/-- `k` steps, stopping at the first fault or refusal. -/
def runSteps : Nat → State → Host.Outcome State Fault Refusal
  | 0, s => .next s
  | k + 1, s =>
    match step s with
    | .next t => runSteps k t
    | .fault r => .fault r
    | .refused r => .refused r

/-- The turns that are accesses by the host (R141 to R146). -/
def Turn.isHostAccess : Turn → Bool
  | .core => false
  | .convert => false
  | .reset => false
  | .inWrite _ _ => true
  | .inRead _ => true
  | .regWrite _ _ => true
  | .regRead _ => true
  | .outRead _ => true

/-- What belongs to the block and not to the outside: everything but the turns to come and what host reads returned. -/
def State.block (s : State) : State := { s with turns := [], rdata := 0, draws := 0 }

/-- The number of steps of a transaction of each class, the accepted H.START counted as one: the table of R182. -/
def transactionSteps : Instr → Nat
  | .tTooSmall => 2
  | .tBaddimW0 _ _ _ => 4
  | .tBaddimH0 _ _ _ => 4
  | .tShort _ _ _ _ => 5
  | .tBaddepth _ _ _ _ => 6
  | .tConvert _ w h =>
    1 + 5 + 1 + 3
      + h.toNat * (w.toNat + (if w.toNat % 8 = 0 then 0 else 1)
          + (paddedBytesPerRow w.toNat - bytesPerRow w.toNat) + 1)
      + 1
  | _ => 0

/-! ## Ceiling division as the spec defines it -/

/-- `q = ceil(a/b)`: "the least natural `q` with `q*b >= a`" (R5). -/
def IsCeilDiv (a b q : Nat) : Prop := a ≤ q * b ∧ ∀ r, a ≤ r * b → q ≤ r

/-! ## Invariants -/

/-- `OUT` holds the byte sequence `bytes` from address `a` on. -/
def State.OutHolds (s : State) (a : Nat) (bytes : List Byte) : Prop :=
  ∀ i b, bytes[i]? = some b → s.outMem.read (a + i) = some b

/-- The host has written every byte of the input that the core can read (R148, R174): addresses 1 to `min(IN_LEN, 8133) - 1`. -/
def State.InputWritten (s : State) (buf : List Byte) : Prop :=
  buf.length = s.inLen ∧ ∀ i, 1 ≤ i → i < 8133 → ∀ b, buf[i]? = some b → s.inMem.read i = some b

/-- Both buffers are in canonical form and inside their address widths (R40). -/
def State.BuffersOk (s : State) : Prop :=
  s.inMem.wf = true ∧ s.inMem.within (2 ^ s.params.inAddrBits) = true
    ∧ s.outMem.wf = true ∧ s.outMem.within (2 ^ s.params.outAddrBits) = true

/-- The registers whose width is a parameter hold numbers of that width (R15, R25, R28, R48). -/
def State.WidthsOk (s : State) : Prop :=
  s.inLen < 2 ^ s.params.lenBits ∧ s.actual < 2 ^ s.params.lenBits ∧ s.rdata < 2 ^ s.params.dataBits

/-- The codes and the coupling of `STATE`, `PHASE`, `ERR` and `OUT_LEN` (R21, R24, R29, R74): reserved codes never occur,
`PHASE` is 0 exactly when not BUSY, `ERR` is nonzero exactly in ERROR, and `OUT_LEN` is 0 outside DONE. -/
def State.CodesOk (s : State) : Prop :=
  s.phase.toNat ≤ 11 ∧ (s.st = .busy ↔ s.phase ≠ 0) ∧ s.err.toNat ≤ 4 ∧ (s.err ≠ 0 ↔ s.st = .error)
    ∧ (s.st ≠ .done → s.outLen = 0)

/-- The body that the running transaction reads: the input after its 4-byte header (R62). -/
def State.body (s : State) : List Byte := (inBytes s).drop 4

/-- The geometry registers hold the geometry of `WIDTH` and `HEIGHT` (R101). -/
def State.GeometryOk (s : State) : Prop :=
  s.bpr.toNat = bytesPerRow s.width.toNat ∧ s.pbpr.toNat = paddedBytesPerRow s.width.toNat
    ∧ s.img.toNat = imageDataSize s.width.toNat s.height.toNat ∧ s.fsize.toNat = fileSize s.width.toNat s.height.toNat

/-- The loop counters and the accumulator as H.START left them. -/
def State.LoopCleared (s : State) : Prop :=
  s.x = 0 ∧ s.y = 0 ∧ s.kb = 0 ∧ s.sidx = 0 ∧ s.acc = 0 ∧ s.nacc = 0

/-- The invariants of phase PIX (R109), item by item; item 4 is completed by what holds at the end of a row's pixels. -/
structure State.PixOk (s : State) : Prop where
  yBound    : s.y.toNat < s.height.toNat
  xBound    : s.x.toNat ≤ s.width.toNat
  kbBound   : s.kb.toNat ≤ s.pbpr.toNat
  index     : s.sidx.toNat = s.y.toNat * s.width.toNat + s.x.toNat
  address   : s.oaddr.toNat = 62 + s.pbpr.toNat * s.y.toNat + s.kb.toNat
  inRow     : (s.x.toNat < s.width.toNat ∨ s.nacc ≠ 0) → s.kb.toNat = s.x.toNat / 8 ∧ s.nacc.toNat = s.x.toNat % 8
  rowEnd    : s.x.toNat = s.width.toNat → s.nacc = 0 → s.bpr.toNat ≤ s.kb.toNat
  accHeld   : ∀ j, j < s.nacc.toNat →
                s.acc.getLsbD j = outbit s.body s.width.toNat s.y.toNat (s.x.toNat - 1 - j)
  accAbove  : ∀ j, s.nacc.toNat ≤ j → s.acc.getLsbD j = false
  rowsDone  : ∀ y k, y < s.y.toNat → k < s.pbpr.toNat →
                s.outMem.read (62 + s.pbpr.toNat * y + k) = some (rowbyte s.body s.width.toNat y k)
  rowSoFar  : ∀ k, k < s.kb.toNat →
                s.outMem.read (62 + s.pbpr.toNat * s.y.toNat + k) = some (rowbyte s.body s.width.toNat s.y.toNat k)

/-- What holds before S.FINISH (R109, R130, R149). -/
structure State.FinOk (s : State) : Prop where
  loops   : s.x = 0 ∧ s.kb = 0 ∧ s.acc = 0 ∧ s.nacc = 0
  row     : s.y = s.height
  index   : s.sidx.toNat = s.width.toNat * s.height.toNat
  address : s.oaddr = s.fsize
  pixels  : s.OutHolds 62 (pixeldata s.width.toNat s.height.toNat s.body)

/-- What has been established when a BUSY block stands before the operation that `PHASE` names (R34, R136). -/
structure State.PhaseOk (s : State) : Prop where
  longEnough : 2 ≤ s.phase.toNat → s.params.tooSmallMax.toNat < s.inLen
  unlatched  : s.phase.toNat ≤ 2 → s.width = 0 ∧ s.height = 0 ∧ s.depth = 0
  latched    : 3 ≤ s.phase.toNat → s.width = inByte s 1 ∧ s.height = inByte s 2 ∧ s.depth = inByte s 3
  dimensions : 4 ≤ s.phase.toNat → s.width ≠ 0 ∧ s.height ≠ 0
  uncounted  : s.phase.toNat ≤ 4 → s.expected = 0 ∧ s.actual = 0
  counted    : 5 ≤ s.phase.toNat → s.expected.toNat = packedByteCount s.width.toNat s.height.toNat
                 ∧ s.actual = s.inLen - 4 ∧ s.expected.toNat ≤ s.actual
  depthOne   : 6 ≤ s.phase.toNat → s.depth = 1
  noGeometry : s.phase.toNat ≤ 6 → s.bpr = 0 ∧ s.pbpr = 0 ∧ s.img = 0 ∧ s.fsize = 0
  geometry   : 7 ≤ s.phase.toNat → s.GeometryOk
  loops      : s.phase.toNat ≤ 9 → s.LoopCleared
  atStart    : s.phase.toNat ≤ 7 → s.oaddr = 0
  afterFile  : 8 ≤ s.phase.toNat → s.OutHolds 0 (fileHeader s.params s.fsize.toNat)
  atInfo     : s.phase.toNat = 8 → s.oaddr = 14
  afterInfo  : 9 ≤ s.phase.toNat → s.OutHolds 14 (infoHeader s.width.toNat s.height.toNat s.img.toNat)
  atPalette  : s.phase.toNat = 9 → s.oaddr = 54
  afterTable : 10 ≤ s.phase.toNat → s.OutHolds 54 palette
  pixels     : s.phase.toNat = 10 → s.PixOk
  finished   : s.phase.toNat = 11 → s.FinOk

/-- What every rejected transaction leaves (R34, R157): no output, the internal registers as H.START left them, and nothing of
the input, the output buffer or the outside changed. -/
def State.RejectedWith (s : State) (code : BitVec 3) (t : State) : Prop :=
  t.st = .error ∧ t.err = code ∧ t.phase = 0 ∧ t.outLen = 0
    ∧ t.bpr = 0 ∧ t.pbpr = 0 ∧ t.img = 0 ∧ t.fsize = 0 ∧ t.oaddr = 0 ∧ t.LoopCleared
    ∧ t.inLen = s.inLen ∧ t.inMem = s.inMem ∧ t.outMem = s.outMem
    ∧ t.params = s.params ∧ t.turns = s.turns ∧ t.rdata = s.rdata ∧ t.sbit = s.sbit ∧ t.draws = s.draws
    ∧ t.epoch = s.epoch

/-- The register values a host can observe when not BUSY: the columns of the table under R34. -/
structure State.ResultOk (s : State) : Prop where
  idle     : s.st = .idle → s.width = 0 ∧ s.height = 0 ∧ s.depth = 0 ∧ s.expected = 0 ∧ s.actual = 0
  error1   : s.err = 1 → s.width = 0 ∧ s.height = 0 ∧ s.depth = 0 ∧ s.expected = 0 ∧ s.actual = 0
  error2   : s.err = 2 → (s.width = 0 ∨ s.height = 0) ∧ s.expected = 0 ∧ s.actual = 0
  error3   : s.err = 3 → s.width ≠ 0 ∧ s.height ≠ 0 ∧ s.expected.toNat = packedByteCount s.width.toNat s.height.toNat
               ∧ s.actual < s.expected.toNat
  error4   : s.err = 4 → s.width ≠ 0 ∧ s.height ≠ 0 ∧ s.depth ≠ 1
               ∧ s.expected.toNat = packedByteCount s.width.toNat s.height.toNat ∧ s.expected.toNat ≤ s.actual
  done     : s.st = .done → s.width ≠ 0 ∧ s.height ≠ 0 ∧ s.depth = 1
               ∧ s.expected.toNat = packedByteCount s.width.toNat s.height.toNat ∧ s.expected.toNat ≤ s.actual
               ∧ s.outLen.toNat = fileSize s.width.toNat s.height.toNat
               ∧ s.OutHolds 0 (header62 s.params s.width.toNat s.height.toNat)
               ∧ ∀ a, a < s.outLen.toNat → (s.outMem.read a).isSome

/-- The invariant of the machine. -/
structure State.Inv (s : State) : Prop where
  buffers : s.BuffersOk
  widths  : s.WidthsOk
  codes   : s.CodesOk
  running : s.st = .busy → s.PhaseOk
  results : s.ResultOk

end Sys2Proof.Machine
end

