-- ==== Sys2Proof/Certificates/Slice0/Obligations.lean ====
section
/-! DEFINITION. The statements for the provers. Each docstring names the rule of spec/ it comes from. -/

open Sys2Proof Sys2Proof.Machine

/-! ## Encoding and decoding -/

/-- Under every choice of the parameters, every well-formed instruction but U.BIT, which R91 gives no encoding of its own, is
decoded back from its words. (That a well-formed T.BADDIM.H0 has a nonzero width is the model's choice, log entry 12.) -/
def Obligations.DecodeInvertsEncode : Prop :=
  ∀ (p : Params) (i : Instr), i.wellFormed p = true → i ≠ .uBit → decode p (encode p i) = .ok i

/-- What the decoder answers is well formed, and is never U.BIT ("never selected separately", opcode_table.json).
That `Instr.wellFormed` asks T.BADDIM.H0 for a nonzero width, and so that no header with both dimensions 0 decodes to it, is the
model's choice: R72 says that either BADDIM row applies there (log entry 12). -/
def Obligations.DecodedInstructionIsWellFormed : Prop :=
  ∀ (p : Params) (f : Fetch) (i : Instr), decode p f = .ok i → i.wellFormed p = true ∧ i ≠ .uBit

/-- Words written out from the patterns of R69, R71 and R72 decode to the rows they stand for. -/
def Obligations.SpecPatternsDecode : Prop :=
  decode Params.default (.otbhdr 4 0x00010101) = .ok .tTooSmall
    ∧ decode Params.default (.otbhdr 6 0x00000501) = .ok (.tBaddimW0 0x00 0x05 0x01)
    ∧ decode Params.default (.otbhdr 7 0x00100201) = .ok (.tShort 0x00 0x10 0x02 0x01)
    ∧ decode Params.default (.otbhdr 5 0xA7080101) = .ok (.tConvert 0xA7 0x08 0x01)
    ∧ decode Params.default (.phase 0b0111 tableCounters) = .ok .fFilehdr
    ∧ decode Params.default (encode Params.default .uBit) = .ok .kShift
    ∧ decode Params.default (.regwr 0 0x00000003) = .ok .hStart
    ∧ decode Params.default (.regwr 0 0xFFFFFFFC) = .error .noCommand

/-- R72, the class conditions: the first line that matches gives the class (the two BADDIM rows have one priority; the model
reads an input with both dimensions 0 as the W0 row, log entry 12). -/
def Obligations.HeaderClassIsTheFirstMatch : Prop :=
  ∀ (p : Params) (n : Nat) (word : HeaderWord) (u w h d : Byte) (e : Nat),
    word.toNat = u.toNat * 2 ^ 24 + w.toNat * 2 ^ 16 + h.toNat * 2 ^ 8 + d.toNat →
    IsCeilDiv (w.toNat * h.toNat) 8 e →
    (n ≤ p.tooSmallMax.toNat → decode p (.otbhdr n word) = .ok .tTooSmall)
    ∧ (p.tooSmallMax.toNat < n → w = 0 → decode p (.otbhdr n word) = .ok (.tBaddimW0 u h d))
    ∧ (p.tooSmallMax.toNat < n → w ≠ 0 → h = 0 → decode p (.otbhdr n word) = .ok (.tBaddimH0 u w d))
    ∧ (p.tooSmallMax.toNat < n → w ≠ 0 → h ≠ 0 → n - 4 < e →
        decode p (.otbhdr n word) = .ok (.tShort u w h d))
    ∧ (p.tooSmallMax.toNat < n → w ≠ 0 → h ≠ 0 → e ≤ n - 4 → d ≠ 1 →
        decode p (.otbhdr n word) = .ok (.tBaddepth u w h d))
    ∧ (p.tooSmallMax.toNat < n → w ≠ 0 → h ≠ 0 → e ≤ n - 4 → d = 1 →
        decode p (.otbhdr n word) = .ok (.tConvert u w h))

/-- R71: the operation that each phase code selects; phase 10 selects among four by the loop counters. -/
def Obligations.PhaseCodeSelectsOperation : Prop :=
  ∀ (p : Params) (c : LoopCounters),
    decode p (.phase 1 c) = .ok .pChklen ∧ decode p (.phase 2 c) = .ok .pLatch ∧ decode p (.phase 3 c) = .ok .pChkdim
    ∧ decode p (.phase 4 c) = .ok .pChkdata ∧ decode p (.phase 5 c) = .ok .pChkdepth ∧ decode p (.phase 6 c) = .ok .kGeom
    ∧ decode p (.phase 7 c) = .ok .fFilehdr ∧ decode p (.phase 8 c) = .ok .fInfohdr ∧ decode p (.phase 9 c) = .ok .fPalette
    ∧ decode p (.phase 11 c) = .ok .sFinish
    ∧ (c.x.toNat < c.width.toNat → decode p (.phase 10 c) = .ok .kShift)
    ∧ (c.width.toNat ≤ c.x.toNat → c.nacc ≠ 0 → decode p (.phase 10 c) = .ok .kFlush)
    ∧ (c.width.toNat ≤ c.x.toNat → c.nacc = 0 → c.kb.toNat < c.pbpr.toNat → decode p (.phase 10 c) = .ok .kPad)
    ∧ (c.width.toNat ≤ c.x.toNat → c.nacc = 0 → c.pbpr.toNat ≤ c.kb.toNat → decode p (.phase 10 c) = .ok .kNextrow)
    ∧ decode p (.phase 0 c) = .error (.reservedPhase 0)
    ∧ ∀ code : BitVec 4, 12 ≤ code.toNat → decode p (.phase code c) = .error (.reservedPhase code)

/-- R69: what a word written to `CTRL` does, by its bits 1:0 alone, for every word a register access carries. -/
def Obligations.ControlWordSelectsCommand : Prop :=
  ∀ (s : State) (ts : List Turn) (d : Nat), d < 2 ^ s.params.dataBits →
    (d % 2 = 1 → step { s with turns := .regWrite 0 d :: ts } = exec .hStart { s with turns := ts })
    ∧ (d % 4 = 2 → step { s with turns := .regWrite 0 d :: ts } = exec .hClear { s with turns := ts })
    ∧ (d % 4 = 0 → step { s with turns := .regWrite 0 d :: ts } = .next { s with turns := ts })

/-! ## The step -/

/-- One step runs the instruction that the next turn's words decode to, on the state with that turn taken off the list.
The model's choices: the list of turns, and that the core moves when none is left, is log entry 4; that a `convert` turn runs the
whole transaction of a class as one step is log entry 10. (R135 gives the core's enabled operation, R72 the classes.) -/
def Obligations.StepRunsTheDecodedInstruction : Prop :=
  ∀ (s : State) (ts : List Turn),
    (∀ i, s.st = .busy → decode s.params (coreFetch s) = .ok i →
      step { s with turns := .core :: ts } = exec i { s with turns := ts }
      ∧ step { s with turns := [] } = exec i { s with turns := [] })
    ∧ (∀ i, decode s.params (classFetch s) = .ok i →
      step { s with turns := .convert :: ts } = exec i { s with turns := ts })
    ∧ (∀ r d i, decode s.params (.regwr r d) = .ok i →
      step { s with turns := .regWrite r d :: ts } = exec i { s with turns := ts })
    ∧ (∀ a v i, decode s.params (.inwr a v) = .ok i →
      i = .hWrin a v ∧ step { s with turns := .inWrite a v :: ts } = exec i { s with turns := ts })
    ∧ (∀ r, step { s with turns := .regRead r :: ts } = exec (.hRdreg r) { s with turns := ts })
    ∧ (∀ a i, decode s.params (.outrd a) = .ok i →
      i = .hRdout a ∧ step { s with turns := .outRead a :: ts } = exec i { s with turns := ts })

/-- R149: the end of a run is stable; with nothing coming from outside, a block that is not BUSY stays as it is. -/
def Obligations.EndOfRunIsStable : Prop :=
  ∀ (s : State) (k : Nat), s.st ≠ .busy → s.turns = [] → runSteps k s = .next s

/-- The model's choice (log entry 14; R135 leaves it open): BUSY with a reserved phase code is a fault. -/
def Obligations.ReservedPhaseFaults : Prop :=
  ∀ s : State, s.st = .busy → s.phase = 0 ∨ 12 ≤ s.phase.toNat → s.turns = [] → step s = .fault (.reservedPhase s.phase)

/-- R147: every host access in every state is performed or ignored, none stops the block or touches `OUT`, and while BUSY none
changes anything of the block (R176, R179). (An access that cannot be expressed is passed over: the model's choice, log entry 28.) -/
def Obligations.HostAccessNeverDisturbsTheBlock : Prop :=
  ∀ (s : State) (t : Turn) (ts : List Turn), t.isHostAccess = true →
    ∃ u, step { s with turns := t :: ts } = .next u ∧ u.turns = ts ∧ u.outMem = s.outMem ∧ u.params = s.params
      ∧ (s.st = .busy → u.block = s.block)

/-- R45: no register write but to `CTRL` and, when not BUSY, to `IN_LEN` has an effect. (A word that no access carries is passed
over as well: the model's choice, log entry 28.) -/
def Obligations.OtherRegisterWritesAreIgnored : Prop :=
  ∀ (s : State) (ts : List Turn) (r : RegNum) (d : Nat), r ≠ 0 → (r ≠ 3 ∨ s.st = .busy) →
    step { s with turns := .regWrite r d :: ts } = .next { s with turns := ts }

/-- R171 and R173: the state after the reset event, in any state (R172), BUSY included: every register from R171, both buffers
from R173. That the parameters and the turns still to come stay is the model's choice (log entry 21); that a location which holds
no value lists no byte, though R172 has those of `OUT` keep what they hold, is its reading (log entry 9). -/
def Obligations.ResetEventClearsEverything : Prop :=
  ∀ (s : State) (ts : List Turn), ∃ t, step { s with turns := .reset :: ts } = .next t
    ∧ t.st = .idle ∧ t.phase = 0 ∧ t.err = 0 ∧ t.inLen = 0
    ∧ t.width = 0 ∧ t.height = 0 ∧ t.depth = 0 ∧ t.expected = 0 ∧ t.actual = 0 ∧ t.outLen = 0
    ∧ t.bpr = 0 ∧ t.pbpr = 0 ∧ t.img = 0 ∧ t.fsize = 0
    ∧ t.x = 0 ∧ t.y = 0 ∧ t.kb = 0 ∧ t.sidx = 0 ∧ t.acc = 0 ∧ t.nacc = 0 ∧ t.oaddr = 0
    ∧ doneOutput t = false ∧ errOutput t = false
    ∧ (∀ a, t.inMem.read a = none) ∧ (∀ a, t.outMem.read a = none)
    ∧ t.params = s.params ∧ t.turns = ts

/-- R34: every register at its reset value and no location of a buffer holding a value. -/
def Obligations.ResetStateValues : Prop :=
  State.reset.st = .idle ∧ State.reset.phase = 0 ∧ State.reset.err = 0 ∧ State.reset.inLen = 0
    ∧ State.reset.width = 0 ∧ State.reset.height = 0 ∧ State.reset.depth = 0
    ∧ State.reset.expected = 0 ∧ State.reset.actual = 0 ∧ State.reset.outLen = 0
    ∧ State.reset.bpr = 0 ∧ State.reset.pbpr = 0 ∧ State.reset.img = 0 ∧ State.reset.fsize = 0
    ∧ State.reset.x = 0 ∧ State.reset.y = 0 ∧ State.reset.kb = 0 ∧ State.reset.sidx = 0
    ∧ State.reset.acc = 0 ∧ State.reset.nacc = 0 ∧ State.reset.oaddr = 0
    ∧ doneOutput State.reset = false ∧ errOutput State.reset = false
    ∧ ∀ a, State.reset.inMem.read a = none ∧ State.reset.outMem.read a = none

/-! ## Stage P -/

/-- R81, R83, R85: checks 1, 2 and 4, each with its frame: a failed check rejects with its code and changes nothing else, a
passed one moves `PHASE` on and changes nothing else. -/
def Obligations.HeaderChecks : Prop :=
  ∀ s : State,
    (s.inLen ≤ s.params.tooSmallMax.toNat → exec .pChklen s = .next { s with err := 1, st := .error, phase := 0 })
    ∧ (s.params.tooSmallMax.toNat < s.inLen → exec .pChklen s = .next { s with phase := 2 })
    ∧ (s.width.toNat = 0 ∨ s.height.toNat = 0 → exec .pChkdim s = .next { s with err := 2, st := .error, phase := 0 })
    ∧ (s.width.toNat ≠ 0 → s.height.toNat ≠ 0 → exec .pChkdim s = .next { s with phase := 4 })
    ∧ (s.depth.toNat ≠ 1 → exec .pChkdepth s = .next { s with err := 4, st := .error, phase := 0 })
    ∧ (s.depth.toNat = 1 → exec .pChkdepth s = .next { s with phase := 6 })

/-- R82 with R174: the header bytes are latched. The second clause, for a header byte that the host never wrote or that lies at
or above `IN_LEN`, is not R82's: R174 calls the first a draw, the model reads a free value in both cases (log entries 7 and 25),
and P.LATCH answers a next state with some three bytes, the rest as always. -/
def Obligations.HeaderLatch : Prop :=
  ∀ s : State,
    (∀ b1 b2 b3, 4 ≤ s.inLen → s.inMem.read 1 = some b1 → s.inMem.read 2 = some b2 → s.inMem.read 3 = some b3 →
      exec .pLatch s = .next { s with width := b1, height := b2, depth := b3, phase := 3 })
    ∧ ∃ b1 b2 b3, exec .pLatch s = .next { s with width := b1, height := b2, depth := b3, phase := 3 }

/-- R84: check 3: both counts are written, exactly, whether it passes or rejects. -/
def Obligations.BodyLengthCheck : Prop :=
  ∀ (s : State) (e : Nat), 4 ≤ s.inLen → IsCeilDiv (s.width.toNat * s.height.toNat) 8 e →
    ∃ t, exec .pChkdata s = .next t ∧ t.expected.toNat = e ∧ t.actual = s.inLen - 4
      ∧ (s.inLen - 4 < e →
          t = { s with expected := t.expected, actual := t.actual, err := 3, st := .error, phase := 0 })
      ∧ (e ≤ s.inLen - 4 → t = { s with expected := t.expected, actual := t.actual, phase := 5 })

/-- R156: a core step that ends in ERROR changes `ERR`, `STATE`, `PHASE` and, in P.CHKDATA, the two counts, and nothing else;
the code tells the phase it arose in. -/
def Obligations.RejectionIsPrecise : Prop :=
  ∀ s t : State, s.st = .busy → s.turns = [] → step s = .next t → t.st = .error →
    t = { s with err := t.err, st := .error, phase := 0, expected := t.expected, actual := t.actual }
    ∧ (s.phase ≠ 4 → t.expected = s.expected ∧ t.actual = s.actual)
    ∧ (t.err = 1 ∧ s.phase = 1 ∨ t.err = 2 ∧ s.phase = 3 ∨ t.err = 3 ∧ s.phase = 4 ∨ t.err = 4 ∧ s.phase = 5)

/-! ## Stage U -/

/-- R91: U.BIT yields bit `7 - (SIDX mod 8)` of the byte at `4 + SIDX div 8`, or absent at or beyond `IN_LEN`, and writes
nothing of the block. (The yielded value is left in the model's `sbit`, log entry 6.) -/
def Obligations.SourceBitFetch : Prop :=
  ∀ s : State, ∃ v, exec .uBit s = .next { s with sbit := v }
    ∧ (s.inLen ≤ 4 + s.sidx.toNat / 8 → v = none)
    ∧ (4 + s.sidx.toNat / 8 < s.inLen → v ≠ none)
    ∧ ∀ b, 4 + s.sidx.toNat / 8 < s.inLen → s.inMem.read (4 + s.sidx.toNat / 8) = some b →
        v = some (decide (b.toNat / 2 ^ (7 - s.sidx.toNat % 8) % 2 = 1))

/-- R91 against R90: for every index the block reaches (R19), U.BIT is `srcbit` of the body. -/
def Obligations.SourceBitIsSrcbit : Prop :=
  ∀ s : State, s.sidx.toNat ≤ 65025 → exec .uBit s = .next { s with sbit := srcbit s.body s.sidx.toNat }

/-- R92, which the spec derives from R84, R91 and R93: where K.SHIFT is the enabled operation, U.BIT is never absent. -/
def Obligations.SourceBitIsNeverAbsent : Prop :=
  ∀ s : State, s.Inv → s.st = .busy → decode s.params (coreFetch s) = .ok .kShift →
    ∃ b, exec .uBit s = .next { s with sbit := some b }

/-! ## Stage K -/

/-- R104 with R101: the geometry registers hold the exact numbers, and nothing else but `PHASE` changes. -/
def Obligations.GeometryRegisters : Prop :=
  ∀ (s : State) (b q : Nat), IsCeilDiv s.width.toNat 8 b → IsCeilDiv b 4 q →
    ∃ t, exec .kGeom s = .next t
      ∧ t.bpr.toNat = b ∧ t.pbpr.toNat = q * 4 ∧ t.img.toNat = q * 4 * s.height.toNat
      ∧ t.fsize.toNat = 62 + q * 4 * s.height.toNat
      ∧ t = { s with bpr := t.bpr, pbpr := t.pbpr, img := t.img, fsize := t.fsize, phase := 7 }

/-- R105: one pixel enters the accumulator inverted (an absent one as 1); the eighth writes the byte at `OADDR` and at no other
address. -/
def Obligations.ShiftTakesOnePixel : Prop :=
  ∀ s : State, ∃ o, o ≤ 1
    ∧ (s.inLen ≤ 4 + s.sidx.toNat / 8 → o = 1)
    ∧ (∀ b, 4 + s.sidx.toNat / 8 < s.inLen → s.inMem.read (4 + s.sidx.toNat / 8) = some b →
        o = 1 - b.toNat / 2 ^ (7 - s.sidx.toNat % 8) % 2)
    ∧ (s.nacc.toNat < 7 → exec .kShift s = .next { s with
        acc := BitVec.ofNat 8 (2 * s.acc.toNat + o), nacc := s.nacc + 1, x := s.x + 1, sidx := s.sidx + 1, phase := 10 })
    ∧ (s.nacc.toNat = 7 → ∃ t, exec .kShift s = .next t
        ∧ t.outMem.read s.oaddr.toNat = some (BitVec.ofNat 8 (2 * s.acc.toNat + o))
        ∧ (∀ a, a ≠ s.oaddr.toNat → t.outMem.read a = s.outMem.read a)
        ∧ t = { s with
            outMem := t.outMem, oaddr := s.oaddr + 1, kb := s.kb + 1, acc := 0, nacc := 0
            x := s.x + 1, sidx := s.sidx + 1, phase := 10 })

/-- R106: the partly filled byte goes out with its bits at the top and zeros below, at `OADDR` and at no other address. -/
def Obligations.FlushWritesPartialByte : Prop :=
  ∀ s : State, s.nacc ≠ 0 →
    ∃ t, exec .kFlush s = .next t
      ∧ t.outMem.read s.oaddr.toNat = some (BitVec.ofNat 8 (s.acc.toNat * 2 ^ (8 - s.nacc.toNat)))
      ∧ (∀ a, a ≠ s.oaddr.toNat → t.outMem.read a = s.outMem.read a)
      ∧ t = { s with outMem := t.outMem, oaddr := s.oaddr + 1, kb := s.kb + 1, acc := 0, nacc := 0, phase := 10 }

/-- R107: a `00` byte at `OADDR` and at no other address. -/
def Obligations.PadWritesZeroByte : Prop :=
  ∀ s : State, ∃ t, exec .kPad s = .next t
    ∧ t.outMem.read s.oaddr.toNat = some 0
    ∧ (∀ a, a ≠ s.oaddr.toNat → t.outMem.read a = s.outMem.read a)
    ∧ t = { s with outMem := t.outMem, oaddr := s.oaddr + 1, kb := s.kb + 1, phase := 10 }

/-- R108: the next row, or FIN after the last; no buffer is touched. -/
def Obligations.NextRowOrFinish : Prop :=
  ∀ s : State, s.y.toNat < s.height.toNat →
    ∃ t, exec .kNextrow s = .next t ∧ t.y.toNat = s.y.toNat + 1
      ∧ (s.y.toNat + 1 = s.height.toNat → t = { s with y := t.y, x := 0, kb := 0, phase := 11 })
      ∧ (s.y.toNat + 1 ≠ s.height.toNat → t = { s with y := t.y, x := 0, kb := 0, phase := 10 })

/-! ## Stage F -/

/-- R127: the 14 bytes at addresses 0 to 13, and no other address. -/
def Obligations.FileHeaderBytes : Prop :=
  ∀ s : State, ∃ t, exec .fFilehdr s = .next t
    ∧ t.OutHolds 0 [s.params.magic0, s.params.magic1,
        BitVec.ofNat 8 (s.fsize.toNat % 256), BitVec.ofNat 8 (s.fsize.toNat / 256), 0, 0, 0, 0, 0, 0, 0x3E, 0, 0, 0]
    ∧ (∀ a, 14 ≤ a → t.outMem.read a = s.outMem.read a)
    ∧ t = { s with outMem := t.outMem, oaddr := 14, phase := 8 }

/-- R128: the 40 bytes at addresses 14 to 53, and no other address. (`HEIGHT` is 1 to 255 here, R128.) -/
def Obligations.InfoHeaderBytes : Prop :=
  ∀ s : State, s.height ≠ 0 → ∃ t, exec .fInfohdr s = .next t
    ∧ t.OutHolds 14 [0x28, 0, 0, 0, s.width, 0, 0, 0, BitVec.ofNat 8 (256 - s.height.toNat), 0xFF, 0xFF, 0xFF,
        1, 0, 1, 0, 0, 0, 0, 0, BitVec.ofNat 8 (s.img.toNat % 256), BitVec.ofNat 8 (s.img.toNat / 256), 0, 0,
        0x13, 0x0B, 0, 0, 0x13, 0x0B, 0, 0, 2, 0, 0, 0, 2, 0, 0, 0]
    ∧ (∀ a, a < 14 ∨ 54 ≤ a → t.outMem.read a = s.outMem.read a)
    ∧ t = { s with outMem := t.outMem, oaddr := 54, phase := 9 }

/-- R129: the 8 bytes at addresses 54 to 61, and no other address. -/
def Obligations.ColourTableBytes : Prop :=
  ∀ s : State, ∃ t, exec .fPalette s = .next t
    ∧ t.OutHolds 54 [0, 0, 0, 0, 0xFF, 0xFF, 0xFF, 0]
    ∧ (∀ a, a < 54 ∨ 62 ≤ a → t.outMem.read a = s.outMem.read a)
    ∧ t = { s with outMem := t.outMem, oaddr := 62, phase := 10 }

/-- R130: the result is published: `OUT_LEN`, `STATE`, `PHASE` and the output `done`, and nothing else. -/
def Obligations.FinishPublishesTheResult : Prop :=
  ∀ s : State, exec .sFinish s = .next { s with outLen := s.fsize, st := .done, phase := 0 }
    ∧ ∀ t, exec .sFinish s = .next t → doneOutput t = true ∧ errOutput t = false

/-! ## Host commands -/

/-- R141, R142: an input byte and the length are written when not BUSY, the byte at address `a` alone; ignored while BUSY.
The last two clauses are the same of the host's register write itself: `IN_LEN` takes the low bits of the data word (R25, R45). -/
def Obligations.HostWritesInputAndLength : Prop :=
  ∀ (s : State) (ts : List Turn) (a n d : Nat) (v : Byte),
    a < 2 ^ s.params.inAddrBits → n < 2 ^ s.params.lenBits → d < 2 ^ s.params.dataBits →
    (s.st ≠ .busy → ∃ t, exec (.hWrin a v) s = .next t
      ∧ t.inMem.read a = some v
      ∧ (∀ b, b ≠ a → t.inMem.read b = s.inMem.read b)
      ∧ t = { s with inMem := t.inMem })
    ∧ (s.st ≠ .busy → exec (.hWrlen n) s = .next { s with inLen := n })
    ∧ (s.st = .busy → exec (.hWrin a v) s = .next s ∧ exec (.hWrlen n) s = .next s)
    ∧ (s.st ≠ .busy → step { s with turns := .regWrite 3 d :: ts }
        = .next { s with turns := ts, inLen := d % 2 ^ s.params.lenBits })
    ∧ (s.st = .busy → step { s with turns := .regWrite 3 d :: ts } = .next { s with turns := ts })

/-- R143: an accepted START clears every result and internal register and goes to phase 1; `IN`, `IN_LEN` and `OUT` stay. -/
def Obligations.StartBeginsATransaction : Prop :=
  ∀ s : State,
    (s.st ≠ .busy → exec .hStart s = .next { s with
      width := 0, height := 0, depth := 0, expected := 0, actual := 0, outLen := 0
      bpr := 0, pbpr := 0, img := 0, fsize := 0
      x := 0, y := 0, kb := 0, sidx := 0, acc := 0, nacc := 0, oaddr := 0
      err := 0, phase := 1, st := .busy })
    ∧ (s.st = .busy → exec .hStart s = .next s)

/-- R144: an accepted CLEAR clears every result and internal register and goes to IDLE; `IN`, `IN_LEN` and `OUT` stay. -/
def Obligations.ClearReturnsToIdle : Prop :=
  ∀ s : State,
    (s.st ≠ .busy → exec .hClear s = .next { s with
      width := 0, height := 0, depth := 0, expected := 0, actual := 0, outLen := 0
      bpr := 0, pbpr := 0, img := 0, fsize := 0
      x := 0, y := 0, kb := 0, sidx := 0, acc := 0, nacc := 0, oaddr := 0
      err := 0, phase := 0, st := .idle })
    ∧ (s.st = .busy → exec .hClear s = .next s)

/-- R145: what each register number reads as. The model's choices: the returned word is left in `rdata` (log entry 5), and while
BUSY registers 2 to 9 return a free value, whose counter `draws` goes up by one (log entry 8). -/
def Obligations.RegisterReads : Prop :=
  ∀ (s : State) (r : RegNum),
    (r = 1 → exec (.hRdreg r) s = .next { s with rdata := s.phase.toNat * 16 + s.st.code.toNat })
    ∧ (r = 0 ∨ 10 ≤ r.toNat → exec (.hRdreg r) s = .next { s with rdata := 0 })
    ∧ (2 ≤ r.toNat → r.toNat ≤ 9 → s.st ≠ .busy → ∃ v, exec (.hRdreg r) s = .next { s with rdata := v }
        ∧ (r = 2 → v = s.err.toNat) ∧ (r = 3 → v = s.inLen) ∧ (r = 4 → v = s.width.toNat)
        ∧ (r = 5 → v = s.height.toNat) ∧ (r = 6 → v = s.depth.toNat) ∧ (r = 7 → v = s.expected.toNat)
        ∧ (r = 8 → v = s.actual) ∧ (r = 9 → v = s.outLen.toNat))
    ∧ (2 ≤ r.toNat → r.toNat ≤ 9 → s.st = .busy →
        ∃ v, v < 2 ^ s.params.dataBits ∧ exec (.hRdreg r) s = .next { s with rdata := v, draws := s.draws + 1 })

/-- R146: in DONE below `OUT_LEN` the byte of `OUT`; elsewhere a free byte. The model's choices: the returned byte is left in
`rdata` (log entry 5), the counter `draws` of free values goes up by one (log entry 8), and an address that lists no byte reads
as a free byte even in DONE below `OUT_LEN`, which no run reaches (log entry 9). -/
def Obligations.OutputReads : Prop :=
  ∀ (s : State) (a : Nat), a < 2 ^ s.params.outAddrBits →
    (∀ b, s.st = .done → a < s.outLen.toNat → s.outMem.read a = some b →
      exec (.hRdout a) s = .next { s with rdata := b.toNat })
    ∧ (s.st ≠ .done ∨ s.outLen.toNat ≤ a ∨ s.outMem.read a = none →
      ∃ v, v < 256 ∧ exec (.hRdout a) s = .next { s with rdata := v, draws := s.draws + 1 })

/-- R160: the outputs `done` and `err` are cleared by H.START and H.CLEAR "and by nothing else the host does". -/
def Obligations.OutputsFallOnlyByStartOrClear : Prop :=
  ∀ (s : State) (t : Turn) (ts : List Turn) (u : State), t.isHostAccess = true →
    step { s with turns := t :: ts } = .next u →
    (doneOutput u ≠ doneOutput s ∨ errOutput u ≠ errOutput s) →
    doneOutput u = false ∧ errOutput u = false ∧ ∃ d, t = .regWrite 0 d ∧ d % 4 ≠ 0

/-! ## Transaction classes -/

/-- R151: the TooSmall transaction. -/
def Obligations.TooSmallTransaction : Prop :=
  ∀ s : State, s.st ≠ .busy → ∃ t, exec .tTooSmall s = .next t ∧ s.RejectedWith 1 t
    ∧ t.width = 0 ∧ t.height = 0 ∧ t.depth = 0 ∧ t.expected = 0 ∧ t.actual = 0

/-- R152: the two InvalidDimensions transactions. -/
def Obligations.InvalidDimensionsTransaction : Prop :=
  ∀ (s : State) (u b d : Byte), s.st ≠ .busy →
    (∃ t, exec (.tBaddimW0 u b d) s = .next t ∧ s.RejectedWith 2 t
      ∧ t.width = 0 ∧ t.height = b ∧ t.depth = d ∧ t.expected = 0 ∧ t.actual = 0)
    ∧ (∃ t, exec (.tBaddimH0 u b d) s = .next t ∧ s.RejectedWith 2 t
      ∧ t.width = b ∧ t.height = 0 ∧ t.depth = d ∧ t.expected = 0 ∧ t.actual = 0)

/-- R153 and R154: the transactions rejected for a short body and for a wrong depth report both counts, exactly. -/
def Obligations.CountingTransactions : Prop :=
  ∀ (s : State) (u w h d : Byte) (e : Nat), s.st ≠ .busy → 4 ≤ s.inLen →
    IsCeilDiv (w.toNat * h.toNat) 8 e →
    (∃ t, exec (.tShort u w h d) s = .next t ∧ s.RejectedWith 3 t
      ∧ t.width = w ∧ t.height = h ∧ t.depth = d ∧ t.expected.toNat = e ∧ t.actual = s.inLen - 4)
    ∧ (∃ t, exec (.tBaddepth u w h d) s = .next t ∧ s.RejectedWith 4 t
      ∧ t.width = w ∧ t.height = h ∧ t.depth = d ∧ t.expected.toNat = e ∧ t.actual = s.inLen - 4)

/-- R148, R149: the accepted transaction: DONE, the exact output bytes, the registers at the end of the run, and no address of
`OUT` beyond the result changed. -/
def Obligations.ConvertTransaction : Prop :=
  ∀ (s : State) (u w h : Byte), s.st ≠ .busy → 4 ≤ s.inLen → w ≠ 0 → h ≠ 0 →
    ∃ t, exec (.tConvert u w h) s = .next t
      ∧ t.st = .done ∧ t.err = 0 ∧ t.phase = 0 ∧ t.width = w ∧ t.height = h ∧ t.depth = 1
      ∧ t.expected.toNat = packedByteCount w.toNat h.toNat ∧ t.actual = s.inLen - 4
      ∧ t.outLen.toNat = fileSize w.toNat h.toNat ∧ t.GeometryOk
      ∧ t.OutHolds 0 (encodeImage s.params w.toNat h.toNat s.begin.body)
      ∧ (∀ a, t.outLen.toNat ≤ a → t.outMem.read a = s.outMem.read a)
      ∧ t.x = 0 ∧ t.kb = 0 ∧ t.y = h ∧ t.sidx.toNat = w.toNat * h.toNat ∧ t.acc = 0 ∧ t.nacc = 0 ∧ t.oaddr = t.fsize
      ∧ t.inLen = s.inLen ∧ t.inMem = s.inMem ∧ t.params = s.params ∧ t.turns = s.turns ∧ t.rdata = s.rdata
      ∧ t.sbit = s.sbit ∧ t.draws = s.draws ∧ t.epoch = s.epoch

/-- The model's choices: like the H.START it begins with (R143), a transaction is ignored while BUSY (log entry 10); `encode`
outside its domain (R125), which no header decodes to, is refused by name (log entry 15); and an access whose address or word
does not fit its width, which "cannot be expressed" (R141), is passed over (log entry 28). -/
def Obligations.TransactionsWhileBusyAndOutsideTheDomain : Prop :=
  (∀ (s : State) (i : Instr) (p : Params) (n : Nat) (word : HeaderWord),
      s.st = .busy → decode p (.otbhdr n word) = .ok i → exec i s = .next s)
    ∧ (∀ (s : State) (u w h : Byte), w = 0 ∨ h = 0 → exec (.tConvert u w h) s = .refused .encodeOutsideDomain)
    ∧ ∀ (s : State) (ts : List Turn) (n : Nat) (v : Byte) (r : RegNum),
        (2 ^ s.params.inAddrBits ≤ n → exec (.hWrin n v) s = .next s
          ∧ step { s with turns := .inWrite n v :: ts } = .next { s with turns := ts }
          ∧ step { s with turns := .inRead n :: ts } = .next { s with turns := ts })
        ∧ (2 ^ s.params.outAddrBits ≤ n → step { s with turns := .outRead n :: ts } = .next { s with turns := ts })
        ∧ (2 ^ s.params.dataBits ≤ n → step { s with turns := .regWrite r n :: ts } = .next { s with turns := ts })

/-! ## Layer 1: the pure functions -/

/-- R80 with R155: the four checks in order, each with its rejection. -/
def Obligations.ParseChecksInOrder : Prop :=
  ∀ (p : Params) (u w h d : Byte) (body : List Byte) (e : Nat), IsCeilDiv (w.toNat * h.toNat) 8 e →
    (∀ buf : List Byte, buf.length ≤ p.tooSmallMax.toNat → parse p buf = .error .tooSmall)
    ∧ (p.tooSmallMax.toNat < body.length + 4 →
      (w = 0 ∨ h = 0 → parse p (u :: w :: h :: d :: body) = .error .invalidDimensions)
      ∧ (w ≠ 0 → h ≠ 0 → body.length < e →
          parse p (u :: w :: h :: d :: body) = .error (.insufficientBitmapData e body.length))
      ∧ (w ≠ 0 → h ≠ 0 → e ≤ body.length → d ≠ 1 →
          parse p (u :: w :: h :: d :: body) = .error .unsupportedColorDepth)
      ∧ (w ≠ 0 → h ≠ 0 → e ≤ body.length → d = 1 →
          parse p (u :: w :: h :: d :: body)
            = .ok { width := w.toNat, height := h.toNat, colorDepth := 1, body := body }))

/-- R121: the exact lengths of the output and of its four parts, and their least and greatest value. The statement covers every
width and height; what it says outside 1 to 255, where `encode` has no meaning (R125), is the model's choice (log entry 30). -/
def Obligations.EncodedLength : Prop :=
  ∀ (p : Params) (w h : Nat) (body : List Byte) (b q : Nat), IsCeilDiv w 8 b → IsCeilDiv b 4 q →
    (fileHeader p (fileSize w h)).length = 14 ∧ (infoHeader w h (imageDataSize w h)).length = 40 ∧ palette.length = 8
    ∧ (pixeldata w h body).length = q * 4 * h
    ∧ (encodeImage p w h body).length = 62 + q * 4 * h
    ∧ (1 ≤ w → w ≤ 32 → h = 1 → (encodeImage p w h body).length = 66)
    ∧ (225 ≤ w → w ≤ 255 → h = 255 → (encodeImage p w h body).length = 8222)
    ∧ (1 ≤ w → w ≤ 255 → 1 ≤ h → h ≤ 255 →
        66 ≤ (encodeImage p w h body).length ∧ (encodeImage p w h body).length ≤ 8222)

/-- R111: round-trip bit fidelity: every pixel's bit of the output is the inverse of its source bit, and 1 beyond the body.
(What it says of widths and heights above 255 is the model's choice, log entry 30.) -/
def Obligations.RoundTripBitFidelity : Prop :=
  ∀ (p : Params) (w h : Nat) (body : List Byte) (y x : Nat), y < h → x < w →
    ∃ b, (encodeImage p w h body)[62 + paddedBytesPerRow w * y + x / 8]? = some b
      ∧ (∀ v, srcbit body (y * w + x) = some v → b.getLsbD (7 - x % 8) = !v)
      ∧ (srcbit body (y * w + x) = none → b.getLsbD (7 - x % 8) = true)

/-- R68, R102: every bit of a row that belongs to no pixel is 0: the low bits of the last data byte and the padding bytes.
(What it says of widths and heights above 255 is the model's choice, log entry 30.) -/
def Obligations.RowPaddingIsZero : Prop :=
  ∀ (p : Params) (w h : Nat) (body : List Byte) (y k j : Nat),
    y < h → k < paddedBytesPerRow w → j < 8 → w ≤ 8 * k + j →
    ∃ b, (encodeImage p w h body)[62 + paddedBytesPerRow w * y + k]? = some b ∧ b.getLsbD (7 - j) = false

/-- R88 item 4: an accepted input stays accepted, with the same output, when bytes are appended, when byte 0 is changed, and
when bits of the body that belong to no pixel are changed. -/
def Obligations.UnusedInputHasNoEffect : Prop :=
  ∀ (p : Params) (u w h d : Byte) (body out : List Byte), convert p (u :: w :: h :: d :: body) = .ok out →
    (∀ more, convert p (u :: w :: h :: d :: (body ++ more)) = .ok out)
    ∧ (∀ v, convert p (v :: w :: h :: d :: body) = .ok out)
    ∧ (∀ other : List Byte, other.length = body.length →
        (∀ i, i < w.toNat * h.toNat → srcbit other i = srcbit body i) →
        convert p (u :: w :: h :: d :: other) = .ok out)

/-! ## Whole-machine rules and headline results -/

/-- Both buffers keep their canonical form and stay inside their address widths (parameters of R2), whatever step is taken. -/
def Obligations.StepKeepsBuffersCanonical : Prop :=
  ∀ s t : State, s.BuffersOk → step s = .next t → t.BuffersOk

/-- R21, R24, R29, R74: reserved codes never occur, `PHASE` is 0 exactly when not BUSY, `ERR` is nonzero exactly in ERROR and
`OUT_LEN` is 0 outside DONE: an invariant of every step. -/
def Obligations.StepKeepsCodesCoupled : Prop :=
  ∀ s t : State, s.CodesOk → step s = .next t → t.CodesOk

/-- R34, R109: the whole invariant, with the widths of R2, every item of R109 and the table of register values under R34, is kept by every step. -/
def Obligations.StepKeepsInvariant : Prop :=
  ∀ s t : State, s.Inv → step s = .next t → t.Inv

/-- The invariant holds at reset. -/
def Obligations.InvariantHoldsAtReset : Prop := State.reset.Inv

/-- "No behaviour of the block is `fault` or `stuck`" (93_implementation_defined.md, R184): from every state that meets the
invariant, every step answers a next state. -/
def Obligations.NoStepStops : Prop :=
  ∀ s : State, s.Inv → ∃ t, step s = .next t

/-- R136: the table of phase changes is complete: a step changes `PHASE` only by H.START (a write of `CTRL` with bit 0 set), by
the core's going on to the next phase, by the core's rejection with the phase's own code, by the core's S.FINISH, or by reset.
The core moves in its own turn and, which is the model's choice (log entry 4), where no turn is left. (A whole transaction taken as
one step is the other layer, log entry 10.) -/
def Obligations.PhaseChangesFollowTheTable : Prop :=
  ∀ s t : State, s.CodesOk → step s = .next t → s.turns.head? ≠ some .convert → t.phase ≠ s.phase →
    (s.st ≠ .busy ∧ t.st = .busy ∧ t.phase = 1 ∧ ∃ d, s.turns.head? = some (.regWrite 0 d) ∧ d % 2 = 1)
    ∨ ((s.turns = [] ∨ s.turns.head? = some .core) ∧ s.st = .busy
        ∧ ((t.st = .busy ∧ s.phase.toNat ≤ 10 ∧ t.phase.toNat = s.phase.toNat + 1)
          ∨ (t.st = .error ∧ t.phase = 0
              ∧ (t.err = 1 ∧ s.phase = 1 ∨ t.err = 2 ∧ s.phase = 3 ∨ t.err = 3 ∧ s.phase = 4 ∨ t.err = 4 ∧ s.phase = 5))
          ∨ (s.phase = 11 ∧ t.st = .done ∧ t.phase = 0)))
    ∨ (s.turns.head? = some .reset ∧ t.st = .idle ∧ t.phase = 0)

/-- R57, R55 item 3: during a transaction neither the input nor its length changes, whatever the turn, unless it is reset, and the
core's read of each address returns the same byte before and after. R51, R40: reads of `IN` are idempotent: a host read of `IN`
returns `readIn`, changes nothing else, and `readIn` of an address stays the same through every step but reset and a host write at
that address. The model's choices: the returned byte is left in `rdata` (log entry 5); where the host wrote nothing it is a free
value fixed until reset (log entries 7 and 27); it is the written byte while BUSY too (log entry 20) and at or above `IN_LEN`
(log entry 26). -/
def Obligations.InputIsStableWhileBusy : Prop :=
  (∀ s t : State, s.st = .busy → s.turns.head? ≠ some .reset → step s = .next t →
    t.inMem = s.inMem ∧ t.inLen = s.inLen ∧ t.params = s.params ∧ ∀ a, inByte t a = inByte s a)
  ∧ (∀ (s : State) (ts : List Turn) (a : Nat), a < 2 ^ s.params.inAddrBits →
      step { s with turns := .inRead a :: ts } = .next { s with turns := ts, rdata := (readIn s a).toNat }
      ∧ ∀ b, s.inMem.read a = some b → readIn s a = b)
  ∧ ∀ (s t : State) (a : Nat), step s = .next t → s.turns.head? ≠ some .reset →
      (∀ v, s.turns.head? ≠ some (.inWrite a v)) → readIn t a = readIn s a

/-- What can change `OUT`. Among the core's steps, those in phases 7 to 10, which come after all four checks (R31, R44, R157). The
other two are the model's and no rule's: a whole transaction taken as one step by a block that is not BUSY (log entry 10; that a
rejected one leaves `OUT` alone is said by `Obligations.TransactionComputesConvert`), and the reset event, which empties the list of
`OUT` where R172 has the locations keep what they hold, with no architectural value (log entry 9). -/
def Obligations.OutputWrittenOnlyAfterTheChecks : Prop :=
  ∀ s t : State, step s = .next t → t.outMem ≠ s.outMem →
    (s.st = .busy ∧ 7 ≤ s.phase.toNat ∧ s.phase.toNat ≤ 10)
    ∨ (s.st ≠ .busy ∧ s.turns.head? = some .convert) ∨ s.turns.head? = some .reset

/-- R77, R174: the pseudo-command LOAD presents a byte sequence of any declarable length to the block and changes nothing else.
That the excess beyond the capacity of `IN`, whose addresses "cannot be expressed" (R141), is not stored (D33) and leaves every
other location alone is the model's choice (log entry 28). -/
def Obligations.LoadPresentsTheInput : Prop :=
  ∀ (s : State) (bytes : List Byte), s.st ≠ .busy → bytes.length < 2 ^ s.params.lenBits →
    ∃ t, runSteps (bytes.length + 1) { s with turns := loadScript bytes } = .next t
      ∧ t.inLen = bytes.length
      ∧ (∀ i, i < bytes.length → i < 2 ^ s.params.inAddrBits → t.inMem.read i = bytes[i]?)
      ∧ (∀ i, bytes.length ≤ i ∨ 2 ^ s.params.inAddrBits ≤ i → t.inMem.read i = s.inMem.read i)
      ∧ t = { s with inMem := t.inMem, inLen := t.inLen, turns := [] }

/-- R126, R148: a transaction computes `convert` of the input, and a rejected one leaves `OUT` alone. R148 speaks of an H.START
and the core's steps; that a `convert` turn takes the same transaction as one step is the model's choice (log entry 10), and
`Obligations.CoreRunReachesTheTransactionResult` says that the two agree. -/
def Obligations.TransactionComputesConvert : Prop :=
  ∀ (s : State) (buf : List Byte), s.st ≠ .busy → s.InputWritten buf →
    ∃ t, step { s with turns := [.convert] } = .next t
      ∧ (∀ bytes, convert s.params buf = .ok bytes →
          t.st = .done ∧ t.err = 0 ∧ t.outLen.toNat = bytes.length ∧ t.OutHolds 0 bytes
          ∧ buf[1]? = some t.width ∧ buf[2]? = some t.height ∧ t.depth = 1
          ∧ t.expected.toNat = packedByteCount t.width.toNat t.height.toNat ∧ t.actual = buf.length - 4)
      ∧ (∀ r, convert s.params buf = .error r →
          t.st = .error ∧ t.err = r.code ∧ t.outLen = 0 ∧ t.outMem = s.outMem
          ∧ ∀ e a, r = .insufficientBitmapData e a → t.expected.toNat = e ∧ t.actual = a)

/-- R148, R182: from any state that is not BUSY, START and then the core's own steps, as many as R182 counts for the class of the
input, reach exactly the state of the whole transaction taken as one step (the model's second layer, log entry 10), every register
and every byte of `OUT` included. -/
def Obligations.CoreRunReachesTheTransactionResult : Prop :=
  ∀ (s : State) (i : Instr), s.st ≠ .busy → s.outMem.wf = true → decode s.params (classFetch s) = .ok i →
    runSteps (transactionSteps i) { s with turns := [startTurn] } = step { s with turns := [.convert] }

/-- R182: a run from START is BUSY up to the number of steps that R182 counts for the class of the input and not after it, and
that number is at most 65546. -/
def Obligations.TransactionStepsAreBounded : Prop :=
  ∀ (s : State) (i : Instr), s.st ≠ .busy → s.outMem.wf = true → decode s.params (classFetch s) = .ok i →
    2 ≤ transactionSteps i ∧ transactionSteps i ≤ 65546
    ∧ (∃ t, runSteps (transactionSteps i) { s with turns := [startTurn] } = .next t ∧ t.st ≠ .busy)
    ∧ ∀ k, 1 ≤ k → k < transactionSteps i →
        ∃ u, runSteps k { s with turns := [startTurn] } = .next u ∧ u.st = .busy

/-- R184: every transaction ends: after an accepted START the core reaches DONE or ERROR within 65546 steps. -/
def Obligations.EveryTransactionEnds : Prop :=
  ∀ s : State, s.st ≠ .busy → s.outMem.wf = true →
    ∃ k t, 2 ≤ k ∧ k ≤ 65546 ∧ runSteps k { s with turns := [startTurn] } = .next t ∧ (t.st = .done ∨ t.st = .error)

/-- R139, R148: host accesses put between the core's steps while BUSY do not affect the outcome: with any such accesses before
the core's next step, that step ends as if there had been none. -/
def Obligations.HostInterleavingHasNoEffect : Prop :=
  ∀ (s : State) (ts : List Turn), (∀ t ∈ ts, t = .core ∨ t.isHostAccess = true) →
    (∀ j, j ≤ ts.count .core → ∃ u, runSteps j { s with turns := [] } = .next u ∧ u.st = .busy) →
    ∀ u, runSteps (ts.count .core + 1) { s with turns := [] } = .next u →
      ∃ t, runSteps (ts.length + 1) { s with turns := ts ++ [.core] } = .next t ∧ t.block = u.block

/-- R33, R87, R175: the outcome of a transaction is a function of the parameters, `IN_LEN` and the input bytes alone: two blocks
that agree on them end alike, whatever happened before in each. R87 speaks of the hardware's transactions; here each is the
`convert` turn that takes the whole transaction as one step, the model's choice (log entry 10). -/
def Obligations.OutcomeForgetsThePast : Prop :=
  ∀ (s₁ s₂ : State) (buf : List Byte), s₁.st ≠ .busy → s₂.st ≠ .busy → s₁.params = s₂.params →
    s₁.InputWritten buf → s₂.InputWritten buf →
    ∃ t₁ t₂, step { s₁ with turns := [.convert] } = .next t₁ ∧ step { s₂ with turns := [.convert] } = .next t₂
      ∧ t₁.st = t₂.st ∧ t₁.err = t₂.err ∧ t₁.width = t₂.width ∧ t₁.height = t₂.height ∧ t₁.depth = t₂.depth
      ∧ t₁.expected = t₂.expected ∧ t₁.actual = t₂.actual ∧ t₁.outLen = t₂.outLen
      ∧ ∀ a, a < t₁.outLen.toNat → t₁.outMem.read a = t₂.outMem.read a
end

