-- ==== Sys2Proof/Laws/State.lean ====
section
/-! SUPPORT. The small lemmas of State: one per field per named update, true by rfl, so that no proof unfolds a record update. -/

namespace Sys2Proof.Machine

/-! ### setPhase -/

@[simp] theorem setPhase_st (s : State) (p : BitVec 4) : (s.setPhase p).st = s.st := rfl
@[simp] theorem setPhase_phase (s : State) (p : BitVec 4) : (s.setPhase p).phase = p := rfl
@[simp] theorem setPhase_err (s : State) (p : BitVec 4) : (s.setPhase p).err = s.err := rfl
@[simp] theorem setPhase_inLen (s : State) (p : BitVec 4) : (s.setPhase p).inLen = s.inLen := rfl
@[simp] theorem setPhase_width (s : State) (p : BitVec 4) : (s.setPhase p).width = s.width := rfl
@[simp] theorem setPhase_height (s : State) (p : BitVec 4) : (s.setPhase p).height = s.height := rfl
@[simp] theorem setPhase_depth (s : State) (p : BitVec 4) : (s.setPhase p).depth = s.depth := rfl
@[simp] theorem setPhase_expected (s : State) (p : BitVec 4) : (s.setPhase p).expected = s.expected := rfl
@[simp] theorem setPhase_actual (s : State) (p : BitVec 4) : (s.setPhase p).actual = s.actual := rfl
@[simp] theorem setPhase_outLen (s : State) (p : BitVec 4) : (s.setPhase p).outLen = s.outLen := rfl
@[simp] theorem setPhase_bpr (s : State) (p : BitVec 4) : (s.setPhase p).bpr = s.bpr := rfl
@[simp] theorem setPhase_pbpr (s : State) (p : BitVec 4) : (s.setPhase p).pbpr = s.pbpr := rfl
@[simp] theorem setPhase_img (s : State) (p : BitVec 4) : (s.setPhase p).img = s.img := rfl
@[simp] theorem setPhase_fsize (s : State) (p : BitVec 4) : (s.setPhase p).fsize = s.fsize := rfl
@[simp] theorem setPhase_x (s : State) (p : BitVec 4) : (s.setPhase p).x = s.x := rfl
@[simp] theorem setPhase_y (s : State) (p : BitVec 4) : (s.setPhase p).y = s.y := rfl
@[simp] theorem setPhase_kb (s : State) (p : BitVec 4) : (s.setPhase p).kb = s.kb := rfl
@[simp] theorem setPhase_sidx (s : State) (p : BitVec 4) : (s.setPhase p).sidx = s.sidx := rfl
@[simp] theorem setPhase_acc (s : State) (p : BitVec 4) : (s.setPhase p).acc = s.acc := rfl
@[simp] theorem setPhase_nacc (s : State) (p : BitVec 4) : (s.setPhase p).nacc = s.nacc := rfl
@[simp] theorem setPhase_oaddr (s : State) (p : BitVec 4) : (s.setPhase p).oaddr = s.oaddr := rfl
@[simp] theorem setPhase_inMem (s : State) (p : BitVec 4) : (s.setPhase p).inMem = s.inMem := rfl
@[simp] theorem setPhase_outMem (s : State) (p : BitVec 4) : (s.setPhase p).outMem = s.outMem := rfl
@[simp] theorem setPhase_params (s : State) (p : BitVec 4) : (s.setPhase p).params = s.params := rfl
@[simp] theorem setPhase_turns (s : State) (p : BitVec 4) : (s.setPhase p).turns = s.turns := rfl
@[simp] theorem setPhase_rdata (s : State) (p : BitVec 4) : (s.setPhase p).rdata = s.rdata := rfl
@[simp] theorem setPhase_sbit (s : State) (p : BitVec 4) : (s.setPhase p).sbit = s.sbit := rfl
@[simp] theorem setPhase_epoch (s : State) (p : BitVec 4) : (s.setPhase p).epoch = s.epoch := rfl
@[simp] theorem setPhase_draws (s : State) (p : BitVec 4) : (s.setPhase p).draws = s.draws := rfl

/-! ### reject -/

@[simp] theorem reject_st (s : State) (c : BitVec 3) : (s.reject c).st = .error := rfl
@[simp] theorem reject_phase (s : State) (c : BitVec 3) : (s.reject c).phase = 0 := rfl
@[simp] theorem reject_err (s : State) (c : BitVec 3) : (s.reject c).err = c := rfl
@[simp] theorem reject_inLen (s : State) (c : BitVec 3) : (s.reject c).inLen = s.inLen := rfl
@[simp] theorem reject_width (s : State) (c : BitVec 3) : (s.reject c).width = s.width := rfl
@[simp] theorem reject_height (s : State) (c : BitVec 3) : (s.reject c).height = s.height := rfl
@[simp] theorem reject_depth (s : State) (c : BitVec 3) : (s.reject c).depth = s.depth := rfl
@[simp] theorem reject_expected (s : State) (c : BitVec 3) : (s.reject c).expected = s.expected := rfl
@[simp] theorem reject_actual (s : State) (c : BitVec 3) : (s.reject c).actual = s.actual := rfl
@[simp] theorem reject_outLen (s : State) (c : BitVec 3) : (s.reject c).outLen = s.outLen := rfl
@[simp] theorem reject_bpr (s : State) (c : BitVec 3) : (s.reject c).bpr = s.bpr := rfl
@[simp] theorem reject_pbpr (s : State) (c : BitVec 3) : (s.reject c).pbpr = s.pbpr := rfl
@[simp] theorem reject_img (s : State) (c : BitVec 3) : (s.reject c).img = s.img := rfl
@[simp] theorem reject_fsize (s : State) (c : BitVec 3) : (s.reject c).fsize = s.fsize := rfl
@[simp] theorem reject_x (s : State) (c : BitVec 3) : (s.reject c).x = s.x := rfl
@[simp] theorem reject_y (s : State) (c : BitVec 3) : (s.reject c).y = s.y := rfl
@[simp] theorem reject_kb (s : State) (c : BitVec 3) : (s.reject c).kb = s.kb := rfl
@[simp] theorem reject_sidx (s : State) (c : BitVec 3) : (s.reject c).sidx = s.sidx := rfl
@[simp] theorem reject_acc (s : State) (c : BitVec 3) : (s.reject c).acc = s.acc := rfl
@[simp] theorem reject_nacc (s : State) (c : BitVec 3) : (s.reject c).nacc = s.nacc := rfl
@[simp] theorem reject_oaddr (s : State) (c : BitVec 3) : (s.reject c).oaddr = s.oaddr := rfl
@[simp] theorem reject_inMem (s : State) (c : BitVec 3) : (s.reject c).inMem = s.inMem := rfl
@[simp] theorem reject_outMem (s : State) (c : BitVec 3) : (s.reject c).outMem = s.outMem := rfl
@[simp] theorem reject_params (s : State) (c : BitVec 3) : (s.reject c).params = s.params := rfl
@[simp] theorem reject_turns (s : State) (c : BitVec 3) : (s.reject c).turns = s.turns := rfl
@[simp] theorem reject_rdata (s : State) (c : BitVec 3) : (s.reject c).rdata = s.rdata := rfl
@[simp] theorem reject_sbit (s : State) (c : BitVec 3) : (s.reject c).sbit = s.sbit := rfl
@[simp] theorem reject_epoch (s : State) (c : BitVec 3) : (s.reject c).epoch = s.epoch := rfl
@[simp] theorem reject_draws (s : State) (c : BitVec 3) : (s.reject c).draws = s.draws := rfl

/-! ### clearRegs -/

@[simp] theorem clearRegs_st (s : State) : (s.clearRegs).st = s.st := rfl
@[simp] theorem clearRegs_phase (s : State) : (s.clearRegs).phase = s.phase := rfl
@[simp] theorem clearRegs_err (s : State) : (s.clearRegs).err = s.err := rfl
@[simp] theorem clearRegs_inLen (s : State) : (s.clearRegs).inLen = s.inLen := rfl
@[simp] theorem clearRegs_width (s : State) : (s.clearRegs).width = 0 := rfl
@[simp] theorem clearRegs_height (s : State) : (s.clearRegs).height = 0 := rfl
@[simp] theorem clearRegs_depth (s : State) : (s.clearRegs).depth = 0 := rfl
@[simp] theorem clearRegs_expected (s : State) : (s.clearRegs).expected = 0 := rfl
@[simp] theorem clearRegs_actual (s : State) : (s.clearRegs).actual = 0 := rfl
@[simp] theorem clearRegs_outLen (s : State) : (s.clearRegs).outLen = 0 := rfl
@[simp] theorem clearRegs_bpr (s : State) : (s.clearRegs).bpr = 0 := rfl
@[simp] theorem clearRegs_pbpr (s : State) : (s.clearRegs).pbpr = 0 := rfl
@[simp] theorem clearRegs_img (s : State) : (s.clearRegs).img = 0 := rfl
@[simp] theorem clearRegs_fsize (s : State) : (s.clearRegs).fsize = 0 := rfl
@[simp] theorem clearRegs_x (s : State) : (s.clearRegs).x = 0 := rfl
@[simp] theorem clearRegs_y (s : State) : (s.clearRegs).y = 0 := rfl
@[simp] theorem clearRegs_kb (s : State) : (s.clearRegs).kb = 0 := rfl
@[simp] theorem clearRegs_sidx (s : State) : (s.clearRegs).sidx = 0 := rfl
@[simp] theorem clearRegs_acc (s : State) : (s.clearRegs).acc = 0 := rfl
@[simp] theorem clearRegs_nacc (s : State) : (s.clearRegs).nacc = 0 := rfl
@[simp] theorem clearRegs_oaddr (s : State) : (s.clearRegs).oaddr = 0 := rfl
@[simp] theorem clearRegs_inMem (s : State) : (s.clearRegs).inMem = s.inMem := rfl
@[simp] theorem clearRegs_outMem (s : State) : (s.clearRegs).outMem = s.outMem := rfl
@[simp] theorem clearRegs_params (s : State) : (s.clearRegs).params = s.params := rfl
@[simp] theorem clearRegs_turns (s : State) : (s.clearRegs).turns = s.turns := rfl
@[simp] theorem clearRegs_rdata (s : State) : (s.clearRegs).rdata = s.rdata := rfl
@[simp] theorem clearRegs_sbit (s : State) : (s.clearRegs).sbit = s.sbit := rfl
@[simp] theorem clearRegs_epoch (s : State) : (s.clearRegs).epoch = s.epoch := rfl
@[simp] theorem clearRegs_draws (s : State) : (s.clearRegs).draws = s.draws := rfl

/-! ### begin -/

@[simp] theorem begin_st (s : State) : (s.begin).st = .busy := rfl
@[simp] theorem begin_phase (s : State) : (s.begin).phase = 1 := rfl
@[simp] theorem begin_err (s : State) : (s.begin).err = 0 := rfl
@[simp] theorem begin_inLen (s : State) : (s.begin).inLen = s.inLen := rfl
@[simp] theorem begin_width (s : State) : (s.begin).width = 0 := rfl
@[simp] theorem begin_height (s : State) : (s.begin).height = 0 := rfl
@[simp] theorem begin_depth (s : State) : (s.begin).depth = 0 := rfl
@[simp] theorem begin_expected (s : State) : (s.begin).expected = 0 := rfl
@[simp] theorem begin_actual (s : State) : (s.begin).actual = 0 := rfl
@[simp] theorem begin_outLen (s : State) : (s.begin).outLen = 0 := rfl
@[simp] theorem begin_bpr (s : State) : (s.begin).bpr = 0 := rfl
@[simp] theorem begin_pbpr (s : State) : (s.begin).pbpr = 0 := rfl
@[simp] theorem begin_img (s : State) : (s.begin).img = 0 := rfl
@[simp] theorem begin_fsize (s : State) : (s.begin).fsize = 0 := rfl
@[simp] theorem begin_x (s : State) : (s.begin).x = 0 := rfl
@[simp] theorem begin_y (s : State) : (s.begin).y = 0 := rfl
@[simp] theorem begin_kb (s : State) : (s.begin).kb = 0 := rfl
@[simp] theorem begin_sidx (s : State) : (s.begin).sidx = 0 := rfl
@[simp] theorem begin_acc (s : State) : (s.begin).acc = 0 := rfl
@[simp] theorem begin_nacc (s : State) : (s.begin).nacc = 0 := rfl
@[simp] theorem begin_oaddr (s : State) : (s.begin).oaddr = 0 := rfl
@[simp] theorem begin_inMem (s : State) : (s.begin).inMem = s.inMem := rfl
@[simp] theorem begin_outMem (s : State) : (s.begin).outMem = s.outMem := rfl
@[simp] theorem begin_params (s : State) : (s.begin).params = s.params := rfl
@[simp] theorem begin_turns (s : State) : (s.begin).turns = s.turns := rfl
@[simp] theorem begin_rdata (s : State) : (s.begin).rdata = s.rdata := rfl
@[simp] theorem begin_sbit (s : State) : (s.begin).sbit = s.sbit := rfl
@[simp] theorem begin_epoch (s : State) : (s.begin).epoch = s.epoch := rfl
@[simp] theorem begin_draws (s : State) : (s.begin).draws = s.draws := rfl

/-! ### toIdle -/

@[simp] theorem toIdle_st (s : State) : (s.toIdle).st = .idle := rfl
@[simp] theorem toIdle_phase (s : State) : (s.toIdle).phase = 0 := rfl
@[simp] theorem toIdle_err (s : State) : (s.toIdle).err = 0 := rfl
@[simp] theorem toIdle_inLen (s : State) : (s.toIdle).inLen = s.inLen := rfl
@[simp] theorem toIdle_width (s : State) : (s.toIdle).width = 0 := rfl
@[simp] theorem toIdle_height (s : State) : (s.toIdle).height = 0 := rfl
@[simp] theorem toIdle_depth (s : State) : (s.toIdle).depth = 0 := rfl
@[simp] theorem toIdle_expected (s : State) : (s.toIdle).expected = 0 := rfl
@[simp] theorem toIdle_actual (s : State) : (s.toIdle).actual = 0 := rfl
@[simp] theorem toIdle_outLen (s : State) : (s.toIdle).outLen = 0 := rfl
@[simp] theorem toIdle_bpr (s : State) : (s.toIdle).bpr = 0 := rfl
@[simp] theorem toIdle_pbpr (s : State) : (s.toIdle).pbpr = 0 := rfl
@[simp] theorem toIdle_img (s : State) : (s.toIdle).img = 0 := rfl
@[simp] theorem toIdle_fsize (s : State) : (s.toIdle).fsize = 0 := rfl
@[simp] theorem toIdle_x (s : State) : (s.toIdle).x = 0 := rfl
@[simp] theorem toIdle_y (s : State) : (s.toIdle).y = 0 := rfl
@[simp] theorem toIdle_kb (s : State) : (s.toIdle).kb = 0 := rfl
@[simp] theorem toIdle_sidx (s : State) : (s.toIdle).sidx = 0 := rfl
@[simp] theorem toIdle_acc (s : State) : (s.toIdle).acc = 0 := rfl
@[simp] theorem toIdle_nacc (s : State) : (s.toIdle).nacc = 0 := rfl
@[simp] theorem toIdle_oaddr (s : State) : (s.toIdle).oaddr = 0 := rfl
@[simp] theorem toIdle_inMem (s : State) : (s.toIdle).inMem = s.inMem := rfl
@[simp] theorem toIdle_outMem (s : State) : (s.toIdle).outMem = s.outMem := rfl
@[simp] theorem toIdle_params (s : State) : (s.toIdle).params = s.params := rfl
@[simp] theorem toIdle_turns (s : State) : (s.toIdle).turns = s.turns := rfl
@[simp] theorem toIdle_rdata (s : State) : (s.toIdle).rdata = s.rdata := rfl
@[simp] theorem toIdle_sbit (s : State) : (s.toIdle).sbit = s.sbit := rfl
@[simp] theorem toIdle_epoch (s : State) : (s.toIdle).epoch = s.epoch := rfl
@[simp] theorem toIdle_draws (s : State) : (s.toIdle).draws = s.draws := rfl

/-! ### resetBlock -/

@[simp] theorem resetBlock_st (s : State) : (s.resetBlock).st = .idle := rfl
@[simp] theorem resetBlock_phase (s : State) : (s.resetBlock).phase = 0 := rfl
@[simp] theorem resetBlock_err (s : State) : (s.resetBlock).err = 0 := rfl
@[simp] theorem resetBlock_inLen (s : State) : (s.resetBlock).inLen = 0 := rfl
@[simp] theorem resetBlock_width (s : State) : (s.resetBlock).width = 0 := rfl
@[simp] theorem resetBlock_height (s : State) : (s.resetBlock).height = 0 := rfl
@[simp] theorem resetBlock_depth (s : State) : (s.resetBlock).depth = 0 := rfl
@[simp] theorem resetBlock_expected (s : State) : (s.resetBlock).expected = 0 := rfl
@[simp] theorem resetBlock_actual (s : State) : (s.resetBlock).actual = 0 := rfl
@[simp] theorem resetBlock_outLen (s : State) : (s.resetBlock).outLen = 0 := rfl
@[simp] theorem resetBlock_bpr (s : State) : (s.resetBlock).bpr = 0 := rfl
@[simp] theorem resetBlock_pbpr (s : State) : (s.resetBlock).pbpr = 0 := rfl
@[simp] theorem resetBlock_img (s : State) : (s.resetBlock).img = 0 := rfl
@[simp] theorem resetBlock_fsize (s : State) : (s.resetBlock).fsize = 0 := rfl
@[simp] theorem resetBlock_x (s : State) : (s.resetBlock).x = 0 := rfl
@[simp] theorem resetBlock_y (s : State) : (s.resetBlock).y = 0 := rfl
@[simp] theorem resetBlock_kb (s : State) : (s.resetBlock).kb = 0 := rfl
@[simp] theorem resetBlock_sidx (s : State) : (s.resetBlock).sidx = 0 := rfl
@[simp] theorem resetBlock_acc (s : State) : (s.resetBlock).acc = 0 := rfl
@[simp] theorem resetBlock_nacc (s : State) : (s.resetBlock).nacc = 0 := rfl
@[simp] theorem resetBlock_oaddr (s : State) : (s.resetBlock).oaddr = 0 := rfl
@[simp] theorem resetBlock_inMem (s : State) : (s.resetBlock).inMem = [] := rfl
@[simp] theorem resetBlock_outMem (s : State) : (s.resetBlock).outMem = [] := rfl
@[simp] theorem resetBlock_params (s : State) : (s.resetBlock).params = s.params := rfl
@[simp] theorem resetBlock_turns (s : State) : (s.resetBlock).turns = s.turns := rfl
@[simp] theorem resetBlock_rdata (s : State) : (s.resetBlock).rdata = s.rdata := rfl
@[simp] theorem resetBlock_sbit (s : State) : (s.resetBlock).sbit = s.sbit := rfl
@[simp] theorem resetBlock_epoch (s : State) : (s.resetBlock).epoch = s.epoch + 1 := rfl
@[simp] theorem resetBlock_draws (s : State) : (s.resetBlock).draws = s.draws := rfl

/-! ### putLength -/

@[simp] theorem putLength_st (s : State) (n : Nat) : (s.putLength n).st = s.st := rfl
@[simp] theorem putLength_phase (s : State) (n : Nat) : (s.putLength n).phase = s.phase := rfl
@[simp] theorem putLength_err (s : State) (n : Nat) : (s.putLength n).err = s.err := rfl
@[simp] theorem putLength_inLen (s : State) (n : Nat) : (s.putLength n).inLen = n % 2 ^ s.params.lenBits := rfl
@[simp] theorem putLength_width (s : State) (n : Nat) : (s.putLength n).width = s.width := rfl
@[simp] theorem putLength_height (s : State) (n : Nat) : (s.putLength n).height = s.height := rfl
@[simp] theorem putLength_depth (s : State) (n : Nat) : (s.putLength n).depth = s.depth := rfl
@[simp] theorem putLength_expected (s : State) (n : Nat) : (s.putLength n).expected = s.expected := rfl
@[simp] theorem putLength_actual (s : State) (n : Nat) : (s.putLength n).actual = s.actual := rfl
@[simp] theorem putLength_outLen (s : State) (n : Nat) : (s.putLength n).outLen = s.outLen := rfl
@[simp] theorem putLength_bpr (s : State) (n : Nat) : (s.putLength n).bpr = s.bpr := rfl
@[simp] theorem putLength_pbpr (s : State) (n : Nat) : (s.putLength n).pbpr = s.pbpr := rfl
@[simp] theorem putLength_img (s : State) (n : Nat) : (s.putLength n).img = s.img := rfl
@[simp] theorem putLength_fsize (s : State) (n : Nat) : (s.putLength n).fsize = s.fsize := rfl
@[simp] theorem putLength_x (s : State) (n : Nat) : (s.putLength n).x = s.x := rfl
@[simp] theorem putLength_y (s : State) (n : Nat) : (s.putLength n).y = s.y := rfl
@[simp] theorem putLength_kb (s : State) (n : Nat) : (s.putLength n).kb = s.kb := rfl
@[simp] theorem putLength_sidx (s : State) (n : Nat) : (s.putLength n).sidx = s.sidx := rfl
@[simp] theorem putLength_acc (s : State) (n : Nat) : (s.putLength n).acc = s.acc := rfl
@[simp] theorem putLength_nacc (s : State) (n : Nat) : (s.putLength n).nacc = s.nacc := rfl
@[simp] theorem putLength_oaddr (s : State) (n : Nat) : (s.putLength n).oaddr = s.oaddr := rfl
@[simp] theorem putLength_inMem (s : State) (n : Nat) : (s.putLength n).inMem = s.inMem := rfl
@[simp] theorem putLength_outMem (s : State) (n : Nat) : (s.putLength n).outMem = s.outMem := rfl
@[simp] theorem putLength_params (s : State) (n : Nat) : (s.putLength n).params = s.params := rfl
@[simp] theorem putLength_turns (s : State) (n : Nat) : (s.putLength n).turns = s.turns := rfl
@[simp] theorem putLength_rdata (s : State) (n : Nat) : (s.putLength n).rdata = s.rdata := rfl
@[simp] theorem putLength_sbit (s : State) (n : Nat) : (s.putLength n).sbit = s.sbit := rfl
@[simp] theorem putLength_epoch (s : State) (n : Nat) : (s.putLength n).epoch = s.epoch := rfl
@[simp] theorem putLength_draws (s : State) (n : Nat) : (s.putLength n).draws = s.draws := rfl

/-! ### putOut -/

@[simp] theorem putOut_st (s : State) (a : Nat) (bs : List Byte) : (s.putOut a bs).st = s.st := rfl
@[simp] theorem putOut_phase (s : State) (a : Nat) (bs : List Byte) : (s.putOut a bs).phase = s.phase := rfl
@[simp] theorem putOut_err (s : State) (a : Nat) (bs : List Byte) : (s.putOut a bs).err = s.err := rfl
@[simp] theorem putOut_inLen (s : State) (a : Nat) (bs : List Byte) : (s.putOut a bs).inLen = s.inLen := rfl
@[simp] theorem putOut_width (s : State) (a : Nat) (bs : List Byte) : (s.putOut a bs).width = s.width := rfl
@[simp] theorem putOut_height (s : State) (a : Nat) (bs : List Byte) : (s.putOut a bs).height = s.height := rfl
@[simp] theorem putOut_depth (s : State) (a : Nat) (bs : List Byte) : (s.putOut a bs).depth = s.depth := rfl
@[simp] theorem putOut_expected (s : State) (a : Nat) (bs : List Byte) : (s.putOut a bs).expected = s.expected := rfl
@[simp] theorem putOut_actual (s : State) (a : Nat) (bs : List Byte) : (s.putOut a bs).actual = s.actual := rfl
@[simp] theorem putOut_outLen (s : State) (a : Nat) (bs : List Byte) : (s.putOut a bs).outLen = s.outLen := rfl
@[simp] theorem putOut_bpr (s : State) (a : Nat) (bs : List Byte) : (s.putOut a bs).bpr = s.bpr := rfl
@[simp] theorem putOut_pbpr (s : State) (a : Nat) (bs : List Byte) : (s.putOut a bs).pbpr = s.pbpr := rfl
@[simp] theorem putOut_img (s : State) (a : Nat) (bs : List Byte) : (s.putOut a bs).img = s.img := rfl
@[simp] theorem putOut_fsize (s : State) (a : Nat) (bs : List Byte) : (s.putOut a bs).fsize = s.fsize := rfl
@[simp] theorem putOut_x (s : State) (a : Nat) (bs : List Byte) : (s.putOut a bs).x = s.x := rfl
@[simp] theorem putOut_y (s : State) (a : Nat) (bs : List Byte) : (s.putOut a bs).y = s.y := rfl
@[simp] theorem putOut_kb (s : State) (a : Nat) (bs : List Byte) : (s.putOut a bs).kb = s.kb := rfl
@[simp] theorem putOut_sidx (s : State) (a : Nat) (bs : List Byte) : (s.putOut a bs).sidx = s.sidx := rfl
@[simp] theorem putOut_acc (s : State) (a : Nat) (bs : List Byte) : (s.putOut a bs).acc = s.acc := rfl
@[simp] theorem putOut_nacc (s : State) (a : Nat) (bs : List Byte) : (s.putOut a bs).nacc = s.nacc := rfl
@[simp] theorem putOut_oaddr (s : State) (a : Nat) (bs : List Byte) : (s.putOut a bs).oaddr = s.oaddr := rfl
@[simp] theorem putOut_inMem (s : State) (a : Nat) (bs : List Byte) : (s.putOut a bs).inMem = s.inMem := rfl
@[simp] theorem putOut_outMem (s : State) (a : Nat) (bs : List Byte) : (s.putOut a bs).outMem = s.outMem.writeBlock a bs := rfl
@[simp] theorem putOut_params (s : State) (a : Nat) (bs : List Byte) : (s.putOut a bs).params = s.params := rfl
@[simp] theorem putOut_turns (s : State) (a : Nat) (bs : List Byte) : (s.putOut a bs).turns = s.turns := rfl
@[simp] theorem putOut_rdata (s : State) (a : Nat) (bs : List Byte) : (s.putOut a bs).rdata = s.rdata := rfl
@[simp] theorem putOut_sbit (s : State) (a : Nat) (bs : List Byte) : (s.putOut a bs).sbit = s.sbit := rfl
@[simp] theorem putOut_epoch (s : State) (a : Nat) (bs : List Byte) : (s.putOut a bs).epoch = s.epoch := rfl
@[simp] theorem putOut_draws (s : State) (a : Nat) (bs : List Byte) : (s.putOut a bs).draws = s.draws := rfl

/-! ### emitByte -/

@[simp] theorem emitByte_st (s : State) (v : Byte) : (s.emitByte v).st = s.st := rfl
@[simp] theorem emitByte_phase (s : State) (v : Byte) : (s.emitByte v).phase = s.phase := rfl
@[simp] theorem emitByte_err (s : State) (v : Byte) : (s.emitByte v).err = s.err := rfl
@[simp] theorem emitByte_inLen (s : State) (v : Byte) : (s.emitByte v).inLen = s.inLen := rfl
@[simp] theorem emitByte_width (s : State) (v : Byte) : (s.emitByte v).width = s.width := rfl
@[simp] theorem emitByte_height (s : State) (v : Byte) : (s.emitByte v).height = s.height := rfl
@[simp] theorem emitByte_depth (s : State) (v : Byte) : (s.emitByte v).depth = s.depth := rfl
@[simp] theorem emitByte_expected (s : State) (v : Byte) : (s.emitByte v).expected = s.expected := rfl
@[simp] theorem emitByte_actual (s : State) (v : Byte) : (s.emitByte v).actual = s.actual := rfl
@[simp] theorem emitByte_outLen (s : State) (v : Byte) : (s.emitByte v).outLen = s.outLen := rfl
@[simp] theorem emitByte_bpr (s : State) (v : Byte) : (s.emitByte v).bpr = s.bpr := rfl
@[simp] theorem emitByte_pbpr (s : State) (v : Byte) : (s.emitByte v).pbpr = s.pbpr := rfl
@[simp] theorem emitByte_img (s : State) (v : Byte) : (s.emitByte v).img = s.img := rfl
@[simp] theorem emitByte_fsize (s : State) (v : Byte) : (s.emitByte v).fsize = s.fsize := rfl
@[simp] theorem emitByte_x (s : State) (v : Byte) : (s.emitByte v).x = s.x := rfl
@[simp] theorem emitByte_y (s : State) (v : Byte) : (s.emitByte v).y = s.y := rfl
@[simp] theorem emitByte_kb (s : State) (v : Byte) : (s.emitByte v).kb = s.kb + 1 := rfl
@[simp] theorem emitByte_sidx (s : State) (v : Byte) : (s.emitByte v).sidx = s.sidx := rfl
@[simp] theorem emitByte_acc (s : State) (v : Byte) : (s.emitByte v).acc = s.acc := rfl
@[simp] theorem emitByte_nacc (s : State) (v : Byte) : (s.emitByte v).nacc = s.nacc := rfl
@[simp] theorem emitByte_oaddr (s : State) (v : Byte) : (s.emitByte v).oaddr = s.oaddr + 1 := rfl
@[simp] theorem emitByte_inMem (s : State) (v : Byte) : (s.emitByte v).inMem = s.inMem := rfl
@[simp] theorem emitByte_outMem (s : State) (v : Byte) : (s.emitByte v).outMem = s.outMem.write s.oaddr.toNat v := rfl
@[simp] theorem emitByte_params (s : State) (v : Byte) : (s.emitByte v).params = s.params := rfl
@[simp] theorem emitByte_turns (s : State) (v : Byte) : (s.emitByte v).turns = s.turns := rfl
@[simp] theorem emitByte_rdata (s : State) (v : Byte) : (s.emitByte v).rdata = s.rdata := rfl
@[simp] theorem emitByte_sbit (s : State) (v : Byte) : (s.emitByte v).sbit = s.sbit := rfl
@[simp] theorem emitByte_epoch (s : State) (v : Byte) : (s.emitByte v).epoch = s.epoch := rfl
@[simp] theorem emitByte_draws (s : State) (v : Byte) : (s.emitByte v).draws = s.draws := rfl

/-! ### answer -/

@[simp] theorem answer_st (s : State) (v : Nat) : (s.answer v).st = s.st := rfl
@[simp] theorem answer_phase (s : State) (v : Nat) : (s.answer v).phase = s.phase := rfl
@[simp] theorem answer_err (s : State) (v : Nat) : (s.answer v).err = s.err := rfl
@[simp] theorem answer_inLen (s : State) (v : Nat) : (s.answer v).inLen = s.inLen := rfl
@[simp] theorem answer_width (s : State) (v : Nat) : (s.answer v).width = s.width := rfl
@[simp] theorem answer_height (s : State) (v : Nat) : (s.answer v).height = s.height := rfl
@[simp] theorem answer_depth (s : State) (v : Nat) : (s.answer v).depth = s.depth := rfl
@[simp] theorem answer_expected (s : State) (v : Nat) : (s.answer v).expected = s.expected := rfl
@[simp] theorem answer_actual (s : State) (v : Nat) : (s.answer v).actual = s.actual := rfl
@[simp] theorem answer_outLen (s : State) (v : Nat) : (s.answer v).outLen = s.outLen := rfl
@[simp] theorem answer_bpr (s : State) (v : Nat) : (s.answer v).bpr = s.bpr := rfl
@[simp] theorem answer_pbpr (s : State) (v : Nat) : (s.answer v).pbpr = s.pbpr := rfl
@[simp] theorem answer_img (s : State) (v : Nat) : (s.answer v).img = s.img := rfl
@[simp] theorem answer_fsize (s : State) (v : Nat) : (s.answer v).fsize = s.fsize := rfl
@[simp] theorem answer_x (s : State) (v : Nat) : (s.answer v).x = s.x := rfl
@[simp] theorem answer_y (s : State) (v : Nat) : (s.answer v).y = s.y := rfl
@[simp] theorem answer_kb (s : State) (v : Nat) : (s.answer v).kb = s.kb := rfl
@[simp] theorem answer_sidx (s : State) (v : Nat) : (s.answer v).sidx = s.sidx := rfl
@[simp] theorem answer_acc (s : State) (v : Nat) : (s.answer v).acc = s.acc := rfl
@[simp] theorem answer_nacc (s : State) (v : Nat) : (s.answer v).nacc = s.nacc := rfl
@[simp] theorem answer_oaddr (s : State) (v : Nat) : (s.answer v).oaddr = s.oaddr := rfl
@[simp] theorem answer_inMem (s : State) (v : Nat) : (s.answer v).inMem = s.inMem := rfl
@[simp] theorem answer_outMem (s : State) (v : Nat) : (s.answer v).outMem = s.outMem := rfl
@[simp] theorem answer_params (s : State) (v : Nat) : (s.answer v).params = s.params := rfl
@[simp] theorem answer_turns (s : State) (v : Nat) : (s.answer v).turns = s.turns := rfl
@[simp] theorem answer_rdata (s : State) (v : Nat) : (s.answer v).rdata = v := rfl
@[simp] theorem answer_sbit (s : State) (v : Nat) : (s.answer v).sbit = s.sbit := rfl
@[simp] theorem answer_epoch (s : State) (v : Nat) : (s.answer v).epoch = s.epoch := rfl
@[simp] theorem answer_draws (s : State) (v : Nat) : (s.answer v).draws = s.draws := rfl

/-! ### nextPixel -/

@[simp] theorem nextPixel_st (s : State) : (nextPixel s).st = s.st := rfl
@[simp] theorem nextPixel_phase (s : State) : (nextPixel s).phase = s.phase := rfl
@[simp] theorem nextPixel_err (s : State) : (nextPixel s).err = s.err := rfl
@[simp] theorem nextPixel_inLen (s : State) : (nextPixel s).inLen = s.inLen := rfl
@[simp] theorem nextPixel_width (s : State) : (nextPixel s).width = s.width := rfl
@[simp] theorem nextPixel_height (s : State) : (nextPixel s).height = s.height := rfl
@[simp] theorem nextPixel_depth (s : State) : (nextPixel s).depth = s.depth := rfl
@[simp] theorem nextPixel_expected (s : State) : (nextPixel s).expected = s.expected := rfl
@[simp] theorem nextPixel_actual (s : State) : (nextPixel s).actual = s.actual := rfl
@[simp] theorem nextPixel_outLen (s : State) : (nextPixel s).outLen = s.outLen := rfl
@[simp] theorem nextPixel_bpr (s : State) : (nextPixel s).bpr = s.bpr := rfl
@[simp] theorem nextPixel_pbpr (s : State) : (nextPixel s).pbpr = s.pbpr := rfl
@[simp] theorem nextPixel_img (s : State) : (nextPixel s).img = s.img := rfl
@[simp] theorem nextPixel_fsize (s : State) : (nextPixel s).fsize = s.fsize := rfl
@[simp] theorem nextPixel_x (s : State) : (nextPixel s).x = s.x + 1 := rfl
@[simp] theorem nextPixel_y (s : State) : (nextPixel s).y = s.y := rfl
@[simp] theorem nextPixel_kb (s : State) : (nextPixel s).kb = s.kb := rfl
@[simp] theorem nextPixel_sidx (s : State) : (nextPixel s).sidx = s.sidx + 1 := rfl
@[simp] theorem nextPixel_acc (s : State) : (nextPixel s).acc = s.acc := rfl
@[simp] theorem nextPixel_nacc (s : State) : (nextPixel s).nacc = s.nacc := rfl
@[simp] theorem nextPixel_oaddr (s : State) : (nextPixel s).oaddr = s.oaddr := rfl
@[simp] theorem nextPixel_inMem (s : State) : (nextPixel s).inMem = s.inMem := rfl
@[simp] theorem nextPixel_outMem (s : State) : (nextPixel s).outMem = s.outMem := rfl
@[simp] theorem nextPixel_params (s : State) : (nextPixel s).params = s.params := rfl
@[simp] theorem nextPixel_turns (s : State) : (nextPixel s).turns = s.turns := rfl
@[simp] theorem nextPixel_rdata (s : State) : (nextPixel s).rdata = s.rdata := rfl
@[simp] theorem nextPixel_sbit (s : State) : (nextPixel s).sbit = s.sbit := rfl
@[simp] theorem nextPixel_epoch (s : State) : (nextPixel s).epoch = s.epoch := rfl
@[simp] theorem nextPixel_draws (s : State) : (nextPixel s).draws = s.draws := rfl

/-! ### emptyAcc -/

@[simp] theorem emptyAcc_st (s : State) : (emptyAcc s).st = s.st := rfl
@[simp] theorem emptyAcc_phase (s : State) : (emptyAcc s).phase = s.phase := rfl
@[simp] theorem emptyAcc_err (s : State) : (emptyAcc s).err = s.err := rfl
@[simp] theorem emptyAcc_inLen (s : State) : (emptyAcc s).inLen = s.inLen := rfl
@[simp] theorem emptyAcc_width (s : State) : (emptyAcc s).width = s.width := rfl
@[simp] theorem emptyAcc_height (s : State) : (emptyAcc s).height = s.height := rfl
@[simp] theorem emptyAcc_depth (s : State) : (emptyAcc s).depth = s.depth := rfl
@[simp] theorem emptyAcc_expected (s : State) : (emptyAcc s).expected = s.expected := rfl
@[simp] theorem emptyAcc_actual (s : State) : (emptyAcc s).actual = s.actual := rfl
@[simp] theorem emptyAcc_outLen (s : State) : (emptyAcc s).outLen = s.outLen := rfl
@[simp] theorem emptyAcc_bpr (s : State) : (emptyAcc s).bpr = s.bpr := rfl
@[simp] theorem emptyAcc_pbpr (s : State) : (emptyAcc s).pbpr = s.pbpr := rfl
@[simp] theorem emptyAcc_img (s : State) : (emptyAcc s).img = s.img := rfl
@[simp] theorem emptyAcc_fsize (s : State) : (emptyAcc s).fsize = s.fsize := rfl
@[simp] theorem emptyAcc_x (s : State) : (emptyAcc s).x = s.x := rfl
@[simp] theorem emptyAcc_y (s : State) : (emptyAcc s).y = s.y := rfl
@[simp] theorem emptyAcc_kb (s : State) : (emptyAcc s).kb = s.kb := rfl
@[simp] theorem emptyAcc_sidx (s : State) : (emptyAcc s).sidx = s.sidx := rfl
@[simp] theorem emptyAcc_acc (s : State) : (emptyAcc s).acc = 0 := rfl
@[simp] theorem emptyAcc_nacc (s : State) : (emptyAcc s).nacc = 0 := rfl
@[simp] theorem emptyAcc_oaddr (s : State) : (emptyAcc s).oaddr = s.oaddr := rfl
@[simp] theorem emptyAcc_inMem (s : State) : (emptyAcc s).inMem = s.inMem := rfl
@[simp] theorem emptyAcc_outMem (s : State) : (emptyAcc s).outMem = s.outMem := rfl
@[simp] theorem emptyAcc_params (s : State) : (emptyAcc s).params = s.params := rfl
@[simp] theorem emptyAcc_turns (s : State) : (emptyAcc s).turns = s.turns := rfl
@[simp] theorem emptyAcc_rdata (s : State) : (emptyAcc s).rdata = s.rdata := rfl
@[simp] theorem emptyAcc_sbit (s : State) : (emptyAcc s).sbit = s.sbit := rfl
@[simp] theorem emptyAcc_epoch (s : State) : (emptyAcc s).epoch = s.epoch := rfl
@[simp] theorem emptyAcc_draws (s : State) : (emptyAcc s).draws = s.draws := rfl

/-! ### withHeader -/

@[simp] theorem withHeader_st (s : State) (w h d : Byte) : (withHeader w h d s).st = s.st := rfl
@[simp] theorem withHeader_phase (s : State) (w h d : Byte) : (withHeader w h d s).phase = s.phase := rfl
@[simp] theorem withHeader_err (s : State) (w h d : Byte) : (withHeader w h d s).err = s.err := rfl
@[simp] theorem withHeader_inLen (s : State) (w h d : Byte) : (withHeader w h d s).inLen = s.inLen := rfl
@[simp] theorem withHeader_width (s : State) (w h d : Byte) : (withHeader w h d s).width = w := rfl
@[simp] theorem withHeader_height (s : State) (w h d : Byte) : (withHeader w h d s).height = h := rfl
@[simp] theorem withHeader_depth (s : State) (w h d : Byte) : (withHeader w h d s).depth = d := rfl
@[simp] theorem withHeader_expected (s : State) (w h d : Byte) : (withHeader w h d s).expected = s.expected := rfl
@[simp] theorem withHeader_actual (s : State) (w h d : Byte) : (withHeader w h d s).actual = s.actual := rfl
@[simp] theorem withHeader_outLen (s : State) (w h d : Byte) : (withHeader w h d s).outLen = s.outLen := rfl
@[simp] theorem withHeader_bpr (s : State) (w h d : Byte) : (withHeader w h d s).bpr = s.bpr := rfl
@[simp] theorem withHeader_pbpr (s : State) (w h d : Byte) : (withHeader w h d s).pbpr = s.pbpr := rfl
@[simp] theorem withHeader_img (s : State) (w h d : Byte) : (withHeader w h d s).img = s.img := rfl
@[simp] theorem withHeader_fsize (s : State) (w h d : Byte) : (withHeader w h d s).fsize = s.fsize := rfl
@[simp] theorem withHeader_x (s : State) (w h d : Byte) : (withHeader w h d s).x = s.x := rfl
@[simp] theorem withHeader_y (s : State) (w h d : Byte) : (withHeader w h d s).y = s.y := rfl
@[simp] theorem withHeader_kb (s : State) (w h d : Byte) : (withHeader w h d s).kb = s.kb := rfl
@[simp] theorem withHeader_sidx (s : State) (w h d : Byte) : (withHeader w h d s).sidx = s.sidx := rfl
@[simp] theorem withHeader_acc (s : State) (w h d : Byte) : (withHeader w h d s).acc = s.acc := rfl
@[simp] theorem withHeader_nacc (s : State) (w h d : Byte) : (withHeader w h d s).nacc = s.nacc := rfl
@[simp] theorem withHeader_oaddr (s : State) (w h d : Byte) : (withHeader w h d s).oaddr = s.oaddr := rfl
@[simp] theorem withHeader_inMem (s : State) (w h d : Byte) : (withHeader w h d s).inMem = s.inMem := rfl
@[simp] theorem withHeader_outMem (s : State) (w h d : Byte) : (withHeader w h d s).outMem = s.outMem := rfl
@[simp] theorem withHeader_params (s : State) (w h d : Byte) : (withHeader w h d s).params = s.params := rfl
@[simp] theorem withHeader_turns (s : State) (w h d : Byte) : (withHeader w h d s).turns = s.turns := rfl
@[simp] theorem withHeader_rdata (s : State) (w h d : Byte) : (withHeader w h d s).rdata = s.rdata := rfl
@[simp] theorem withHeader_sbit (s : State) (w h d : Byte) : (withHeader w h d s).sbit = s.sbit := rfl
@[simp] theorem withHeader_epoch (s : State) (w h d : Byte) : (withHeader w h d s).epoch = s.epoch := rfl
@[simp] theorem withHeader_draws (s : State) (w h d : Byte) : (withHeader w h d s).draws = s.draws := rfl

/-! ### latchCounts -/

@[simp] theorem latchCounts_st (s : State) : (latchCounts s).st = s.st := rfl
@[simp] theorem latchCounts_phase (s : State) : (latchCounts s).phase = s.phase := rfl
@[simp] theorem latchCounts_err (s : State) : (latchCounts s).err = s.err := rfl
@[simp] theorem latchCounts_inLen (s : State) : (latchCounts s).inLen = s.inLen := rfl
@[simp] theorem latchCounts_width (s : State) : (latchCounts s).width = s.width := rfl
@[simp] theorem latchCounts_height (s : State) : (latchCounts s).height = s.height := rfl
@[simp] theorem latchCounts_depth (s : State) : (latchCounts s).depth = s.depth := rfl
@[simp] theorem latchCounts_expected (s : State) : (latchCounts s).expected = BitVec.ofNat 16 (expectedBytes s) := rfl
@[simp] theorem latchCounts_actual (s : State) : (latchCounts s).actual = actualBytes s := rfl
@[simp] theorem latchCounts_outLen (s : State) : (latchCounts s).outLen = s.outLen := rfl
@[simp] theorem latchCounts_bpr (s : State) : (latchCounts s).bpr = s.bpr := rfl
@[simp] theorem latchCounts_pbpr (s : State) : (latchCounts s).pbpr = s.pbpr := rfl
@[simp] theorem latchCounts_img (s : State) : (latchCounts s).img = s.img := rfl
@[simp] theorem latchCounts_fsize (s : State) : (latchCounts s).fsize = s.fsize := rfl
@[simp] theorem latchCounts_x (s : State) : (latchCounts s).x = s.x := rfl
@[simp] theorem latchCounts_y (s : State) : (latchCounts s).y = s.y := rfl
@[simp] theorem latchCounts_kb (s : State) : (latchCounts s).kb = s.kb := rfl
@[simp] theorem latchCounts_sidx (s : State) : (latchCounts s).sidx = s.sidx := rfl
@[simp] theorem latchCounts_acc (s : State) : (latchCounts s).acc = s.acc := rfl
@[simp] theorem latchCounts_nacc (s : State) : (latchCounts s).nacc = s.nacc := rfl
@[simp] theorem latchCounts_oaddr (s : State) : (latchCounts s).oaddr = s.oaddr := rfl
@[simp] theorem latchCounts_inMem (s : State) : (latchCounts s).inMem = s.inMem := rfl
@[simp] theorem latchCounts_outMem (s : State) : (latchCounts s).outMem = s.outMem := rfl
@[simp] theorem latchCounts_params (s : State) : (latchCounts s).params = s.params := rfl
@[simp] theorem latchCounts_turns (s : State) : (latchCounts s).turns = s.turns := rfl
@[simp] theorem latchCounts_rdata (s : State) : (latchCounts s).rdata = s.rdata := rfl
@[simp] theorem latchCounts_sbit (s : State) : (latchCounts s).sbit = s.sbit := rfl
@[simp] theorem latchCounts_epoch (s : State) : (latchCounts s).epoch = s.epoch := rfl
@[simp] theorem latchCounts_draws (s : State) : (latchCounts s).draws = s.draws := rfl

/-! ### latchGeometry -/

@[simp] theorem latchGeometry_st (s : State) : (latchGeometry s).st = s.st := rfl
@[simp] theorem latchGeometry_phase (s : State) : (latchGeometry s).phase = s.phase := rfl
@[simp] theorem latchGeometry_err (s : State) : (latchGeometry s).err = s.err := rfl
@[simp] theorem latchGeometry_inLen (s : State) : (latchGeometry s).inLen = s.inLen := rfl
@[simp] theorem latchGeometry_width (s : State) : (latchGeometry s).width = s.width := rfl
@[simp] theorem latchGeometry_height (s : State) : (latchGeometry s).height = s.height := rfl
@[simp] theorem latchGeometry_depth (s : State) : (latchGeometry s).depth = s.depth := rfl
@[simp] theorem latchGeometry_expected (s : State) : (latchGeometry s).expected = s.expected := rfl
@[simp] theorem latchGeometry_actual (s : State) : (latchGeometry s).actual = s.actual := rfl
@[simp] theorem latchGeometry_outLen (s : State) : (latchGeometry s).outLen = s.outLen := rfl
@[simp] theorem latchGeometry_bpr (s : State) : (latchGeometry s).bpr = BitVec.ofNat 6 (bytesPerRow s.width.toNat) := rfl
@[simp] theorem latchGeometry_pbpr (s : State) : (latchGeometry s).pbpr = BitVec.ofNat 6 (paddedBytesPerRow s.width.toNat) := rfl
@[simp] theorem latchGeometry_img (s : State) : (latchGeometry s).img = BitVec.ofNat 14 (imageDataSize s.width.toNat s.height.toNat) := rfl
@[simp] theorem latchGeometry_fsize (s : State) : (latchGeometry s).fsize = BitVec.ofNat 14 (fileSize s.width.toNat s.height.toNat) := rfl
@[simp] theorem latchGeometry_x (s : State) : (latchGeometry s).x = s.x := rfl
@[simp] theorem latchGeometry_y (s : State) : (latchGeometry s).y = s.y := rfl
@[simp] theorem latchGeometry_kb (s : State) : (latchGeometry s).kb = s.kb := rfl
@[simp] theorem latchGeometry_sidx (s : State) : (latchGeometry s).sidx = s.sidx := rfl
@[simp] theorem latchGeometry_acc (s : State) : (latchGeometry s).acc = s.acc := rfl
@[simp] theorem latchGeometry_nacc (s : State) : (latchGeometry s).nacc = s.nacc := rfl
@[simp] theorem latchGeometry_oaddr (s : State) : (latchGeometry s).oaddr = s.oaddr := rfl
@[simp] theorem latchGeometry_inMem (s : State) : (latchGeometry s).inMem = s.inMem := rfl
@[simp] theorem latchGeometry_outMem (s : State) : (latchGeometry s).outMem = s.outMem := rfl
@[simp] theorem latchGeometry_params (s : State) : (latchGeometry s).params = s.params := rfl
@[simp] theorem latchGeometry_turns (s : State) : (latchGeometry s).turns = s.turns := rfl
@[simp] theorem latchGeometry_rdata (s : State) : (latchGeometry s).rdata = s.rdata := rfl
@[simp] theorem latchGeometry_sbit (s : State) : (latchGeometry s).sbit = s.sbit := rfl
@[simp] theorem latchGeometry_epoch (s : State) : (latchGeometry s).epoch = s.epoch := rfl
@[simp] theorem latchGeometry_draws (s : State) : (latchGeometry s).draws = s.draws := rfl

/-! ### endOfPixels -/

@[simp] theorem endOfPixels_st (s : State) : (endOfPixels s).st = s.st := rfl
@[simp] theorem endOfPixels_phase (s : State) : (endOfPixels s).phase = s.phase := rfl
@[simp] theorem endOfPixels_err (s : State) : (endOfPixels s).err = s.err := rfl
@[simp] theorem endOfPixels_inLen (s : State) : (endOfPixels s).inLen = s.inLen := rfl
@[simp] theorem endOfPixels_width (s : State) : (endOfPixels s).width = s.width := rfl
@[simp] theorem endOfPixels_height (s : State) : (endOfPixels s).height = s.height := rfl
@[simp] theorem endOfPixels_depth (s : State) : (endOfPixels s).depth = s.depth := rfl
@[simp] theorem endOfPixels_expected (s : State) : (endOfPixels s).expected = s.expected := rfl
@[simp] theorem endOfPixels_actual (s : State) : (endOfPixels s).actual = s.actual := rfl
@[simp] theorem endOfPixels_outLen (s : State) : (endOfPixels s).outLen = s.outLen := rfl
@[simp] theorem endOfPixels_bpr (s : State) : (endOfPixels s).bpr = s.bpr := rfl
@[simp] theorem endOfPixels_pbpr (s : State) : (endOfPixels s).pbpr = s.pbpr := rfl
@[simp] theorem endOfPixels_img (s : State) : (endOfPixels s).img = s.img := rfl
@[simp] theorem endOfPixels_fsize (s : State) : (endOfPixels s).fsize = s.fsize := rfl
@[simp] theorem endOfPixels_x (s : State) : (endOfPixels s).x = s.x := rfl
@[simp] theorem endOfPixels_y (s : State) : (endOfPixels s).y = s.height := rfl
@[simp] theorem endOfPixels_kb (s : State) : (endOfPixels s).kb = s.kb := rfl
@[simp] theorem endOfPixels_sidx (s : State) : (endOfPixels s).sidx = BitVec.ofNat 16 (s.width.toNat * s.height.toNat) := rfl
@[simp] theorem endOfPixels_acc (s : State) : (endOfPixels s).acc = s.acc := rfl
@[simp] theorem endOfPixels_nacc (s : State) : (endOfPixels s).nacc = s.nacc := rfl
@[simp] theorem endOfPixels_oaddr (s : State) : (endOfPixels s).oaddr = s.fsize := rfl
@[simp] theorem endOfPixels_inMem (s : State) : (endOfPixels s).inMem = s.inMem := rfl
@[simp] theorem endOfPixels_outMem (s : State) : (endOfPixels s).outMem = s.outMem := rfl
@[simp] theorem endOfPixels_params (s : State) : (endOfPixels s).params = s.params := rfl
@[simp] theorem endOfPixels_turns (s : State) : (endOfPixels s).turns = s.turns := rfl
@[simp] theorem endOfPixels_rdata (s : State) : (endOfPixels s).rdata = s.rdata := rfl
@[simp] theorem endOfPixels_sbit (s : State) : (endOfPixels s).sbit = s.sbit := rfl
@[simp] theorem endOfPixels_epoch (s : State) : (endOfPixels s).epoch = s.epoch := rfl
@[simp] theorem endOfPixels_draws (s : State) : (endOfPixels s).draws = s.draws := rfl

/-! ### block -/

@[simp] theorem block_st (s : State) : (s.block).st = s.st := rfl
@[simp] theorem block_phase (s : State) : (s.block).phase = s.phase := rfl
@[simp] theorem block_err (s : State) : (s.block).err = s.err := rfl
@[simp] theorem block_inLen (s : State) : (s.block).inLen = s.inLen := rfl
@[simp] theorem block_width (s : State) : (s.block).width = s.width := rfl
@[simp] theorem block_height (s : State) : (s.block).height = s.height := rfl
@[simp] theorem block_depth (s : State) : (s.block).depth = s.depth := rfl
@[simp] theorem block_expected (s : State) : (s.block).expected = s.expected := rfl
@[simp] theorem block_actual (s : State) : (s.block).actual = s.actual := rfl
@[simp] theorem block_outLen (s : State) : (s.block).outLen = s.outLen := rfl
@[simp] theorem block_bpr (s : State) : (s.block).bpr = s.bpr := rfl
@[simp] theorem block_pbpr (s : State) : (s.block).pbpr = s.pbpr := rfl
@[simp] theorem block_img (s : State) : (s.block).img = s.img := rfl
@[simp] theorem block_fsize (s : State) : (s.block).fsize = s.fsize := rfl
@[simp] theorem block_x (s : State) : (s.block).x = s.x := rfl
@[simp] theorem block_y (s : State) : (s.block).y = s.y := rfl
@[simp] theorem block_kb (s : State) : (s.block).kb = s.kb := rfl
@[simp] theorem block_sidx (s : State) : (s.block).sidx = s.sidx := rfl
@[simp] theorem block_acc (s : State) : (s.block).acc = s.acc := rfl
@[simp] theorem block_nacc (s : State) : (s.block).nacc = s.nacc := rfl
@[simp] theorem block_oaddr (s : State) : (s.block).oaddr = s.oaddr := rfl
@[simp] theorem block_inMem (s : State) : (s.block).inMem = s.inMem := rfl
@[simp] theorem block_outMem (s : State) : (s.block).outMem = s.outMem := rfl
@[simp] theorem block_params (s : State) : (s.block).params = s.params := rfl
@[simp] theorem block_turns (s : State) : (s.block).turns = [] := rfl
@[simp] theorem block_rdata (s : State) : (s.block).rdata = 0 := rfl
@[simp] theorem block_sbit (s : State) : (s.block).sbit = s.sbit := rfl
@[simp] theorem block_epoch (s : State) : (s.block).epoch = s.epoch := rfl
@[simp] theorem block_draws (s : State) : (s.block).draws = 0 := rfl

/-! ### putIn: the input buffer aside, nothing changes -/

@[simp] theorem putIn_st (s : State) (a : Nat) (v : Byte) : (s.putIn a v).st = s.st := by unfold State.putIn; split <;> rfl
@[simp] theorem putIn_phase (s : State) (a : Nat) (v : Byte) : (s.putIn a v).phase = s.phase := by unfold State.putIn; split <;> rfl
@[simp] theorem putIn_err (s : State) (a : Nat) (v : Byte) : (s.putIn a v).err = s.err := by unfold State.putIn; split <;> rfl
@[simp] theorem putIn_inLen (s : State) (a : Nat) (v : Byte) : (s.putIn a v).inLen = s.inLen := by unfold State.putIn; split <;> rfl
@[simp] theorem putIn_width (s : State) (a : Nat) (v : Byte) : (s.putIn a v).width = s.width := by unfold State.putIn; split <;> rfl
@[simp] theorem putIn_height (s : State) (a : Nat) (v : Byte) : (s.putIn a v).height = s.height := by unfold State.putIn; split <;> rfl
@[simp] theorem putIn_depth (s : State) (a : Nat) (v : Byte) : (s.putIn a v).depth = s.depth := by unfold State.putIn; split <;> rfl
@[simp] theorem putIn_expected (s : State) (a : Nat) (v : Byte) : (s.putIn a v).expected = s.expected := by unfold State.putIn; split <;> rfl
@[simp] theorem putIn_actual (s : State) (a : Nat) (v : Byte) : (s.putIn a v).actual = s.actual := by unfold State.putIn; split <;> rfl
@[simp] theorem putIn_outLen (s : State) (a : Nat) (v : Byte) : (s.putIn a v).outLen = s.outLen := by unfold State.putIn; split <;> rfl
@[simp] theorem putIn_bpr (s : State) (a : Nat) (v : Byte) : (s.putIn a v).bpr = s.bpr := by unfold State.putIn; split <;> rfl
@[simp] theorem putIn_pbpr (s : State) (a : Nat) (v : Byte) : (s.putIn a v).pbpr = s.pbpr := by unfold State.putIn; split <;> rfl
@[simp] theorem putIn_img (s : State) (a : Nat) (v : Byte) : (s.putIn a v).img = s.img := by unfold State.putIn; split <;> rfl
@[simp] theorem putIn_fsize (s : State) (a : Nat) (v : Byte) : (s.putIn a v).fsize = s.fsize := by unfold State.putIn; split <;> rfl
@[simp] theorem putIn_x (s : State) (a : Nat) (v : Byte) : (s.putIn a v).x = s.x := by unfold State.putIn; split <;> rfl
@[simp] theorem putIn_y (s : State) (a : Nat) (v : Byte) : (s.putIn a v).y = s.y := by unfold State.putIn; split <;> rfl
@[simp] theorem putIn_kb (s : State) (a : Nat) (v : Byte) : (s.putIn a v).kb = s.kb := by unfold State.putIn; split <;> rfl
@[simp] theorem putIn_sidx (s : State) (a : Nat) (v : Byte) : (s.putIn a v).sidx = s.sidx := by unfold State.putIn; split <;> rfl
@[simp] theorem putIn_acc (s : State) (a : Nat) (v : Byte) : (s.putIn a v).acc = s.acc := by unfold State.putIn; split <;> rfl
@[simp] theorem putIn_nacc (s : State) (a : Nat) (v : Byte) : (s.putIn a v).nacc = s.nacc := by unfold State.putIn; split <;> rfl
@[simp] theorem putIn_oaddr (s : State) (a : Nat) (v : Byte) : (s.putIn a v).oaddr = s.oaddr := by unfold State.putIn; split <;> rfl
@[simp] theorem putIn_outMem (s : State) (a : Nat) (v : Byte) : (s.putIn a v).outMem = s.outMem := by unfold State.putIn; split <;> rfl
@[simp] theorem putIn_params (s : State) (a : Nat) (v : Byte) : (s.putIn a v).params = s.params := by unfold State.putIn; split <;> rfl
@[simp] theorem putIn_turns (s : State) (a : Nat) (v : Byte) : (s.putIn a v).turns = s.turns := by unfold State.putIn; split <;> rfl
@[simp] theorem putIn_rdata (s : State) (a : Nat) (v : Byte) : (s.putIn a v).rdata = s.rdata := by unfold State.putIn; split <;> rfl
@[simp] theorem putIn_sbit (s : State) (a : Nat) (v : Byte) : (s.putIn a v).sbit = s.sbit := by unfold State.putIn; split <;> rfl
@[simp] theorem putIn_epoch (s : State) (a : Nat) (v : Byte) : (s.putIn a v).epoch = s.epoch := by unfold State.putIn; split <;> rfl
@[simp] theorem putIn_draws (s : State) (a : Nat) (v : Byte) : (s.putIn a v).draws = s.draws := by unfold State.putIn; split <;> rfl

/-! ### answerReg: the host's read data and the free-value counter aside, nothing changes -/

@[simp] theorem answerReg_st (s : State) (o : Option Nat) : (s.answerReg o).st = s.st := by cases o <;> rfl
@[simp] theorem answerReg_phase (s : State) (o : Option Nat) : (s.answerReg o).phase = s.phase := by cases o <;> rfl
@[simp] theorem answerReg_err (s : State) (o : Option Nat) : (s.answerReg o).err = s.err := by cases o <;> rfl
@[simp] theorem answerReg_inLen (s : State) (o : Option Nat) : (s.answerReg o).inLen = s.inLen := by cases o <;> rfl
@[simp] theorem answerReg_width (s : State) (o : Option Nat) : (s.answerReg o).width = s.width := by cases o <;> rfl
@[simp] theorem answerReg_height (s : State) (o : Option Nat) : (s.answerReg o).height = s.height := by cases o <;> rfl
@[simp] theorem answerReg_depth (s : State) (o : Option Nat) : (s.answerReg o).depth = s.depth := by cases o <;> rfl
@[simp] theorem answerReg_expected (s : State) (o : Option Nat) : (s.answerReg o).expected = s.expected := by cases o <;> rfl
@[simp] theorem answerReg_actual (s : State) (o : Option Nat) : (s.answerReg o).actual = s.actual := by cases o <;> rfl
@[simp] theorem answerReg_outLen (s : State) (o : Option Nat) : (s.answerReg o).outLen = s.outLen := by cases o <;> rfl
@[simp] theorem answerReg_bpr (s : State) (o : Option Nat) : (s.answerReg o).bpr = s.bpr := by cases o <;> rfl
@[simp] theorem answerReg_pbpr (s : State) (o : Option Nat) : (s.answerReg o).pbpr = s.pbpr := by cases o <;> rfl
@[simp] theorem answerReg_img (s : State) (o : Option Nat) : (s.answerReg o).img = s.img := by cases o <;> rfl
@[simp] theorem answerReg_fsize (s : State) (o : Option Nat) : (s.answerReg o).fsize = s.fsize := by cases o <;> rfl
@[simp] theorem answerReg_x (s : State) (o : Option Nat) : (s.answerReg o).x = s.x := by cases o <;> rfl
@[simp] theorem answerReg_y (s : State) (o : Option Nat) : (s.answerReg o).y = s.y := by cases o <;> rfl
@[simp] theorem answerReg_kb (s : State) (o : Option Nat) : (s.answerReg o).kb = s.kb := by cases o <;> rfl
@[simp] theorem answerReg_sidx (s : State) (o : Option Nat) : (s.answerReg o).sidx = s.sidx := by cases o <;> rfl
@[simp] theorem answerReg_acc (s : State) (o : Option Nat) : (s.answerReg o).acc = s.acc := by cases o <;> rfl
@[simp] theorem answerReg_nacc (s : State) (o : Option Nat) : (s.answerReg o).nacc = s.nacc := by cases o <;> rfl
@[simp] theorem answerReg_oaddr (s : State) (o : Option Nat) : (s.answerReg o).oaddr = s.oaddr := by cases o <;> rfl
@[simp] theorem answerReg_inMem (s : State) (o : Option Nat) : (s.answerReg o).inMem = s.inMem := by cases o <;> rfl
@[simp] theorem answerReg_outMem (s : State) (o : Option Nat) : (s.answerReg o).outMem = s.outMem := by cases o <;> rfl
@[simp] theorem answerReg_params (s : State) (o : Option Nat) : (s.answerReg o).params = s.params := by cases o <;> rfl
@[simp] theorem answerReg_turns (s : State) (o : Option Nat) : (s.answerReg o).turns = s.turns := by cases o <;> rfl
@[simp] theorem answerReg_sbit (s : State) (o : Option Nat) : (s.answerReg o).sbit = s.sbit := by cases o <;> rfl
@[simp] theorem answerReg_epoch (s : State) (o : Option Nat) : (s.answerReg o).epoch = s.epoch := by cases o <;> rfl

/-! ### answerByte: the host's read data and the free-value counter aside, nothing changes -/

@[simp] theorem answerByte_st (s : State) (o : Option Byte) : (s.answerByte o).st = s.st := by cases o <;> rfl
@[simp] theorem answerByte_phase (s : State) (o : Option Byte) : (s.answerByte o).phase = s.phase := by cases o <;> rfl
@[simp] theorem answerByte_err (s : State) (o : Option Byte) : (s.answerByte o).err = s.err := by cases o <;> rfl
@[simp] theorem answerByte_inLen (s : State) (o : Option Byte) : (s.answerByte o).inLen = s.inLen := by cases o <;> rfl
@[simp] theorem answerByte_width (s : State) (o : Option Byte) : (s.answerByte o).width = s.width := by cases o <;> rfl
@[simp] theorem answerByte_height (s : State) (o : Option Byte) : (s.answerByte o).height = s.height := by cases o <;> rfl
@[simp] theorem answerByte_depth (s : State) (o : Option Byte) : (s.answerByte o).depth = s.depth := by cases o <;> rfl
@[simp] theorem answerByte_expected (s : State) (o : Option Byte) : (s.answerByte o).expected = s.expected := by cases o <;> rfl
@[simp] theorem answerByte_actual (s : State) (o : Option Byte) : (s.answerByte o).actual = s.actual := by cases o <;> rfl
@[simp] theorem answerByte_outLen (s : State) (o : Option Byte) : (s.answerByte o).outLen = s.outLen := by cases o <;> rfl
@[simp] theorem answerByte_bpr (s : State) (o : Option Byte) : (s.answerByte o).bpr = s.bpr := by cases o <;> rfl
@[simp] theorem answerByte_pbpr (s : State) (o : Option Byte) : (s.answerByte o).pbpr = s.pbpr := by cases o <;> rfl
@[simp] theorem answerByte_img (s : State) (o : Option Byte) : (s.answerByte o).img = s.img := by cases o <;> rfl
@[simp] theorem answerByte_fsize (s : State) (o : Option Byte) : (s.answerByte o).fsize = s.fsize := by cases o <;> rfl
@[simp] theorem answerByte_x (s : State) (o : Option Byte) : (s.answerByte o).x = s.x := by cases o <;> rfl
@[simp] theorem answerByte_y (s : State) (o : Option Byte) : (s.answerByte o).y = s.y := by cases o <;> rfl
@[simp] theorem answerByte_kb (s : State) (o : Option Byte) : (s.answerByte o).kb = s.kb := by cases o <;> rfl
@[simp] theorem answerByte_sidx (s : State) (o : Option Byte) : (s.answerByte o).sidx = s.sidx := by cases o <;> rfl
@[simp] theorem answerByte_acc (s : State) (o : Option Byte) : (s.answerByte o).acc = s.acc := by cases o <;> rfl
@[simp] theorem answerByte_nacc (s : State) (o : Option Byte) : (s.answerByte o).nacc = s.nacc := by cases o <;> rfl
@[simp] theorem answerByte_oaddr (s : State) (o : Option Byte) : (s.answerByte o).oaddr = s.oaddr := by cases o <;> rfl
@[simp] theorem answerByte_inMem (s : State) (o : Option Byte) : (s.answerByte o).inMem = s.inMem := by cases o <;> rfl
@[simp] theorem answerByte_outMem (s : State) (o : Option Byte) : (s.answerByte o).outMem = s.outMem := by cases o <;> rfl
@[simp] theorem answerByte_params (s : State) (o : Option Byte) : (s.answerByte o).params = s.params := by cases o <;> rfl
@[simp] theorem answerByte_turns (s : State) (o : Option Byte) : (s.answerByte o).turns = s.turns := by cases o <;> rfl
@[simp] theorem answerByte_sbit (s : State) (o : Option Byte) : (s.answerByte o).sbit = s.sbit := by cases o <;> rfl
@[simp] theorem answerByte_epoch (s : State) (o : Option Byte) : (s.answerByte o).epoch = s.epoch := by cases o <;> rfl

end Sys2Proof.Machine
end

