-- ==== Sys2Proof/Laws/Memory.lean ====
section
/-! SUPPORT. The laws of buffers: read after write, and that every write keeps the canonical form and the address bound. -/

namespace Sys2Proof.Machine

theorem Memory.read_write (m : Memory) (a b : Nat) (v : Byte) :
    (m.write a v).read b = if b = a then some v else m.read b := by
  induction m with
  | nil => rfl
  | cons c m ih =>
    obtain ⟨k, w⟩ := c
    simp only [Memory.write]
    split
    · simp [Memory.read]
    · split
      · subst_vars; simp only [Memory.read]; split <;> simp_all
      · simp only [Memory.read, ih]; split <;> simp_all; omega

@[simp] theorem Memory.read_write_same (m : Memory) (a : Nat) (v : Byte) : (m.write a v).read a = some v := by
  simp [Memory.read_write]

theorem Memory.read_write_other (m : Memory) (a b : Nat) (v : Byte) (h : b ≠ a) :
    (m.write a v).read b = m.read b := by
  simp [Memory.read_write, h]

/-- A block write changes exactly the addresses of the block. -/
theorem Memory.read_writeBlock (m : Memory) (a b : Nat) (bs : List Byte) :
    (m.writeBlock a bs).read b = if a ≤ b ∧ b < a + bs.length then bs[b - a]? else m.read b := by
  induction bs generalizing m a with
  | nil => simp [Memory.writeBlock]
  | cons v vs ih =>
    simp only [Memory.writeBlock, ih, Memory.read_write, List.length_cons]
    by_cases h : b = a
    · subst h; simp
    · by_cases h2 : a + 1 ≤ b ∧ b < a + 1 + vs.length
      · have h3 : a ≤ b ∧ b < a + (vs.length + 1) := by omega
        have h4 : b - a = (b - (a + 1)) + 1 := by omega
        simp [h2, h3, h4]
      · have h3 : ¬ (a ≤ b ∧ b < a + (vs.length + 1)) := by omega
        rw [if_neg h2, if_neg h3, if_neg h]

theorem Memory.read_writeBlock_outside (m : Memory) (a b : Nat) (bs : List Byte) (h : b < a ∨ a + bs.length ≤ b) :
    (m.writeBlock a bs).read b = m.read b := by
  rw [Memory.read_writeBlock, if_neg (by omega)]

theorem Memory.read_writeBlock_inside (m : Memory) (a i : Nat) (bs : List Byte) (h : i < bs.length) :
    (m.writeBlock a bs).read (a + i) = some bs[i] := by
  rw [Memory.read_writeBlock, if_pos (by omega)]; simp [h]

/-- The first address of a canonical buffer, and that the rest lies above it. -/
theorem Memory.wf_cons (a : Nat) (v : Byte) (m : Memory) :
    Memory.wf ((a, v) :: m) = true ↔ (∀ c ∈ m.head?, a < c.1) ∧ m.wf = true := by
  cases m with
  | nil => simp [Memory.wf]
  | cons c m => obtain ⟨b, w⟩ := c; simp [Memory.wf]

theorem Memory.write_head (m : Memory) (a : Nat) (v : Byte) :
    ∀ c ∈ (m.write a v).head?, c.1 = a ∨ ∃ d ∈ m.head?, c.1 = d.1 ∧ d.1 < a := by
  cases m with
  | nil => simp [Memory.write]
  | cons c m =>
    obtain ⟨b, w⟩ := c
    simp only [Memory.write]
    split
    · simp
    · split
      · simp
      · simp; omega

/-- Writing a byte keeps the canonical form. -/
theorem Memory.write_wf (m : Memory) (a : Nat) (v : Byte) (h : m.wf = true) : (m.write a v).wf = true := by
  induction m with
  | nil => rfl
  | cons c m ih =>
    obtain ⟨b, w⟩ := c
    rw [Memory.wf_cons] at h
    simp only [Memory.write]
    split
    · rw [Memory.wf_cons, Memory.wf_cons]; simp_all
    · split
      · rw [Memory.wf_cons]; simp_all
      · rw [Memory.wf_cons]
        refine ⟨fun c hc => ?_, ih h.2⟩
        rcases Memory.write_head m a v c hc with h1 | ⟨d, hd, h1, h2⟩
        · omega
        · have := h.1 d hd; omega

theorem Memory.writeBlock_wf (m : Memory) (a : Nat) (bs : List Byte) (h : m.wf = true) :
    (m.writeBlock a bs).wf = true := by
  induction bs generalizing m a with
  | nil => exact h
  | cons v vs ih => exact ih _ _ (Memory.write_wf m a v h)

/-- Writing a byte below a bound keeps every address below it. -/
theorem Memory.write_within (n : Nat) (m : Memory) (a : Nat) (v : Byte) (ha : a < n) (h : m.within n = true) :
    (m.write a v).within n = true := by
  induction m with
  | nil => simpa [Memory.write, Memory.within] using ha
  | cons c m ih =>
    obtain ⟨b, w⟩ := c
    simp only [Memory.within, List.all_cons, Bool.and_eq_true, decide_eq_true_eq] at h ih ⊢
    simp only [Memory.write]
    split
    · simp [ha, h.1]; simpa using h.2
    · split
      · simp [ha]; simpa using h.2
      · simp only [List.all_cons, Bool.and_eq_true, decide_eq_true_eq]; exact ⟨h.1, ih h.2⟩

theorem Memory.writeBlock_within (n : Nat) (m : Memory) (a : Nat) (bs : List Byte) (ha : a + bs.length ≤ n)
    (h : m.within n = true) : (m.writeBlock a bs).within n = true := by
  induction bs generalizing m a with
  | nil => exact h
  | cons v vs ih =>
    simp only [List.length_cons] at ha
    exact ih _ _ (by omega) (Memory.write_within n m a v (by omega) h)

/-- Writing a block and then the bytes after it is one block write. -/
theorem Memory.writeBlock_append (m : Memory) (a : Nat) (bs cs : List Byte) :
    (m.writeBlock a bs).writeBlock (a + bs.length) cs = m.writeBlock a (bs ++ cs) := by
  induction bs generalizing m a with
  | nil => rfl
  | cons v vs ih =>
    simp only [Memory.writeBlock, List.length_cons, List.cons_append]
    rw [← ih, Nat.add_assoc, Nat.add_comm 1]

@[simp] theorem Memory.writeBlock_one (m : Memory) (a : Nat) (v : Byte) : m.writeBlock a [v] = m.write a v := rfl

/-- In a canonical buffer nothing is listed below the first address. -/
theorem Memory.read_below (m : Memory) (b : Nat) (h : m.wf = true) (hb : ∀ c ∈ m.head?, b < c.1) : m.read b = none := by
  induction m with
  | nil => rfl
  | cons c m ih =>
    obtain ⟨a, v⟩ := c
    rw [Memory.wf_cons] at h
    have hba : b < a := hb (a, v) rfl
    simp only [Memory.read, if_neg (Nat.ne_of_lt hba)]
    exact ih h.2 fun c hc => Nat.lt_trans hba (h.1 c hc)

/-- Canonical buffers that hold the same bytes are the same data. -/
theorem Memory.eq_of_read (m n : Memory) (hm : m.wf = true) (hn : n.wf = true) (h : ∀ a, m.read a = n.read a) : m = n := by
  induction m generalizing n with
  | nil =>
    cases n with
    | nil => rfl
    | cons c n => have := h c.1; simp [Memory.read] at this
  | cons c m ih =>
    obtain ⟨a, v⟩ := c
    cases n with
    | nil => have := h a; simp [Memory.read] at this
    | cons d n =>
      obtain ⟨b, w⟩ := d
      have hm' := hm; have hn' := hn
      rw [Memory.wf_cons] at hm' hn'
      have hab : a = b := by
        rcases Nat.lt_trichotomy a b with hlt | heq | hgt
        · have h1 := h a
          rw [Memory.read_below ((b, w) :: n) a hn (by simpa using hlt)] at h1
          simp [Memory.read] at h1
        · exact heq
        · have h1 := h b
          rw [Memory.read_below ((a, v) :: m) b hm (by simpa using hgt)] at h1
          simp [Memory.read] at h1
      subst hab
      have hvw : v = w := by simpa [Memory.read] using h a
      subst hvw
      rw [ih n hm'.2 hn'.2]
      intro x
      by_cases hx : x = a
      · subst hx; rw [Memory.read_below m x hm'.2 hm'.1, Memory.read_below n x hn'.2 hn'.1]
      · simpa [Memory.read, hx] using h x

@[simp] theorem Memory.wf_nil : Memory.wf [] = true := rfl
@[simp] theorem Memory.within_nil (n : Nat) : Memory.within n [] = true := rfl

end Sys2Proof.Machine
end

