-- ==== Sys2Proof/Laws/Numbers.lean ====
section
/-! SUPPORT. The arithmetic of the block: ceiling division, the geometry and its bounds (R3, R5, R101), and the lengths of the headers. -/

namespace Sys2Proof.Machine

/-! ## Ceiling division -/

theorem isCeilDiv_unique {a b q r : Nat} (hq : IsCeilDiv a b q) (hr : IsCeilDiv a b r) : q = r :=
  Nat.le_antisymm (hq.2 r hr.1) (hr.2 q hq.1)

theorem isCeilDiv_eight (a : Nat) : IsCeilDiv a 8 ((a + 7) / 8) :=
  ⟨by omega, fun r hr => by omega⟩

theorem isCeilDiv_four (a : Nat) : IsCeilDiv a 4 ((a + 3) / 4) :=
  ⟨by omega, fun r hr => by omega⟩

theorem packedByteCount_eq (w h : Nat) : packedByteCount w h = (w * h + 7) / 8 := by
  simp [packedByteCount, Nat.shiftRight_eq_div_pow]

theorem bytesPerRow_eq (w : Nat) : bytesPerRow w = (w + 7) / 8 := by
  simp [bytesPerRow, Nat.shiftRight_eq_div_pow]

theorem paddedBytesPerRow_eq (w : Nat) : paddedBytesPerRow w = (bytesPerRow w + 3) / 4 * 4 := by
  simp [paddedBytesPerRow, Nat.shiftRight_eq_div_pow, Nat.shiftLeft_eq]

theorem packedByteCount_isCeilDiv (w h : Nat) : IsCeilDiv (w * h) 8 (packedByteCount w h) :=
  packedByteCount_eq w h ▸ isCeilDiv_eight _

theorem bytesPerRow_isCeilDiv (w : Nat) : IsCeilDiv w 8 (bytesPerRow w) :=
  bytesPerRow_eq w ▸ isCeilDiv_eight _

theorem paddedBytesPerRow_of_isCeilDiv {w b q : Nat} (hb : IsCeilDiv w 8 b) (hq : IsCeilDiv b 4 q) :
    bytesPerRow w = b ∧ paddedBytesPerRow w = q * 4 := by
  have h1 := isCeilDiv_unique (bytesPerRow_isCeilDiv w) hb
  refine ⟨h1, ?_⟩
  rw [paddedBytesPerRow_eq, h1, isCeilDiv_unique (isCeilDiv_four b) hq]

/-! ## Bounds (R3) -/

theorem mul_byte_le (w h : Byte) : w.toNat * h.toNat ≤ 65025 :=
  Nat.mul_le_mul (Nat.le_of_lt_succ w.isLt) (Nat.le_of_lt_succ h.isLt)

theorem packedByteCount_le (w h : Byte) : packedByteCount w.toNat h.toNat ≤ 8129 := by
  have := mul_byte_le w h; rw [packedByteCount_eq]; omega

theorem packedByteCount_mul_le (w h : Nat) : w * h ≤ 8 * packedByteCount w h := by
  rw [packedByteCount_eq]; omega

theorem bytesPerRow_le (w : Byte) : bytesPerRow w.toNat ≤ 32 := by
  have := w.isLt; rw [bytesPerRow_eq]; omega

theorem bytesPerRow_le_padded (w : Nat) : bytesPerRow w ≤ paddedBytesPerRow w := by
  rw [paddedBytesPerRow_eq]; omega

theorem paddedBytesPerRow_le (w : Byte) : paddedBytesPerRow w.toNat ≤ 32 := by
  have := bytesPerRow_le w; rw [paddedBytesPerRow_eq]; omega

theorem imageDataSize_le (w h : Byte) : imageDataSize w.toNat h.toNat ≤ 8160 := by
  have h1 := paddedBytesPerRow_le w
  have h2 : h.toNat ≤ 255 := Nat.le_of_lt_succ h.isLt
  calc imageDataSize w.toNat h.toNat ≤ 32 * 255 := Nat.mul_le_mul h1 h2
    _ = 8160 := rfl

theorem fileSize_le (w h : Byte) : fileSize w.toNat h.toNat ≤ 8222 := by
  have := imageDataSize_le w h; unfold fileSize; omega

/-- The geometry fits its registers: latching it is exact (R5, R16, R17). -/
theorem latchGeometry_geometryOk (s : State) : (latchGeometry s).GeometryOk := by
  have h1 := bytesPerRow_le s.width
  have h2 := paddedBytesPerRow_le s.width
  have h3 := imageDataSize_le s.width s.height
  have h4 := fileSize_le s.width s.height
  refine ⟨?_, ?_, ?_, ?_⟩ <;> simp <;> omega

/-- The counts fit their registers: latching them is exact (R84). -/
theorem latchCounts_expected_toNat (s : State) :
    (latchCounts s).expected.toNat = packedByteCount s.width.toNat s.height.toNat := by
  have := packedByteCount_le s.width s.height
  simp [expectedBytes]; omega

/-- A word of a register access has at least 32 bits, and at least the bits of a length (R25). -/
theorem lenBits_le_dataBits (p : Params) : p.lenBits ≤ p.dataBits := Nat.le_max_right _ _

theorem two_pow_32_le (p : Params) : 2 ^ 32 ≤ 2 ^ p.dataBits :=
  Nat.pow_le_pow_right (by decide) (Nat.le_max_left _ _)

/-- `IN` has at least 8192 locations, `OUT` and the length registers at least 16384 values (R2, D5, D6, D7). -/
theorem two_pow_13_le (p : Params) : 8192 ≤ 2 ^ p.inAddrBits :=
  Nat.pow_le_pow_right (n := 2) (i := 13) (by decide) (Nat.le_add_right _ _)

theorem two_pow_14_le (p : Params) : 16384 ≤ 2 ^ p.outAddrBits :=
  Nat.pow_le_pow_right (n := 2) (i := 14) (by decide) (Nat.le_add_right _ _)

theorem two_pow_14_le_len (p : Params) : 16384 ≤ 2 ^ p.lenBits :=
  Nat.pow_le_pow_right (n := 2) (i := 14) (by decide) (Nat.le_add_right _ _)

/-! ## Lengths of the fixed parts -/

@[simp] theorem field32_length (n : Nat) : (field32 n).length = 4 := rfl
@[simp] theorem field16_length (n : Nat) : (field16 n).length = 2 := rfl
@[simp] theorem le32_length (v : BitVec 32) : (le32 v).length = 4 := rfl
theorem fileHeader_length (p : Params) (n : Nat) : (fileHeader p n).length = 14 := rfl
theorem infoHeader_length (w h n : Nat) : (infoHeader w h n).length = 40 := rfl
theorem palette_length : palette.length = 8 := rfl
theorem header62_length (p : Params) (w h : Nat) : (header62 p w h).length = 62 := rfl
theorem rowBytes_length (body : List Byte) (w y : Nat) : (rowBytes body w y).length = paddedBytesPerRow w := by
  simp [rowBytes]

/-! ## Bits -/

/-- The bit an MSB-first index selects, as a number (R47). -/
theorem msbBit_eq (b : Byte) (i : Nat) : msbBit b i = decide (b.toNat / 2 ^ (7 - i % 8) % 2 = 1) := by
  simp [msbBit, BitVec.getLsbD, Nat.testBit_eq_decide_div_mod_eq]

/-- Bit 0 of the shifted accumulator is the new bit, and bit `j + 1` the old bit `j` (R105). -/
theorem shiftIn_getLsbD (acc : Byte) (o : Bool) (j : Nat) (hj : j < 8) :
    (shiftIn acc o).getLsbD j = if j = 0 then o else acc.getLsbD (j - 1) := by
  unfold shiftIn
  rcases j with _ | j
  · cases o <;> simp
  · simp [hj, BitVec.getLsbD_eq_getElem (show j < 8 by omega)]

end Sys2Proof.Machine
end

