-- ==== Sys2Proof/Laws/Ops.lean ====
section
/-! SUPPORT. One lemma per shared operation of the machine: what it can do, said once. -/

namespace Sys2Proof.Machine

/-! ## Reading the input -/

/-- A byte the host wrote below `IN_LEN` is what the core reads (R42). -/
theorem readIn_written {s : State} {a : Nat} {b : Byte} (hb : s.inMem.read a = some b) : readIn s a = b := by
  simp [readIn, hb]

/-- What a read of `IN` returns depends on the buffer and the number of resets alone. -/
theorem readIn_congr {s t : State} {a : Nat} (h1 : t.inMem.read a = s.inMem.read a) (h2 : t.epoch = s.epoch) :
    readIn t a = readIn s a := by
  simp [readIn, h1, h2]

theorem inByte_written {s : State} {a : Nat} {b : Byte} (ha : a < s.inLen) (hb : s.inMem.read a = some b) :
    inByte s a = b := by
  simp [inByte, ha, readIn_written hb]

/-- What the core reads depends on the input, its length and the number of resets alone. -/
theorem inByte_congr {s t : State} (h1 : t.inLen = s.inLen) (h2 : t.inMem = s.inMem) (h3 : t.epoch = s.epoch) (a : Nat) :
    inByte t a = inByte s a := by
  simp [inByte, readIn, h1, h2, h3]

theorem inBytes_congr {s t : State} (h1 : t.inLen = s.inLen) (h2 : t.inMem = s.inMem) (h3 : t.epoch = s.epoch) :
    inBytes t = inBytes s := by
  have : inByte t = inByte s := funext (inByte_congr h1 h2 h3)
  simp [inBytes, h1, this]

theorem body_congr {s t : State} (h1 : t.inLen = s.inLen) (h2 : t.inMem = s.inMem) (h3 : t.epoch = s.epoch) :
    t.body = s.body := by
  simp [State.body, inBytes_congr h1 h2 h3]

theorem inBytes_getElem? (s : State) (i : Nat) :
    (inBytes s)[i]? = if i < s.inLen ∧ i < 8192 then some (inByte s i) else none := by
  by_cases h : i < min s.inLen 8192
  · have h' : i < s.inLen ∧ i < 8192 := by omega
    simp [inBytes, h, h']
  · have h' : ¬ (i < s.inLen ∧ i < 8192) := by omega
    rw [if_neg h', List.getElem?_eq_none]; simp [inBytes]; omega

theorem body_getElem? (s : State) (k : Nat) :
    s.body[k]? = if 4 + k < s.inLen ∧ 4 + k < 8192 then some (inByte s (4 + k)) else none := by
  rw [State.body, List.getElem?_drop, inBytes_getElem?]

theorem body_length (s : State) : s.body.length = min s.inLen 8192 - 4 := by
  simp [State.body, inBytes]

/-- `IN` is large enough for every body the header can demand (R3): with enough bytes declared, the body has them. -/
theorem body_length_ge (s : State) (w h : Byte) (hl : packedByteCount w.toNat h.toNat ≤ s.inLen - 4) :
    packedByteCount w.toNat h.toNat ≤ s.body.length := by
  have := packedByteCount_le w h; rw [body_length]; omega

/-! ## Writing the input -/

/-- Storing at an address of `IN` changes that location alone; an address that `IN` does not have changes nothing. -/
theorem putIn_read (s : State) (a b : Nat) (v : Byte) :
    (s.putIn a v).inMem.read b = if b = a ∧ a < 2 ^ s.params.inAddrBits then some v else s.inMem.read b := by
  unfold State.putIn
  by_cases h : a < 2 ^ s.params.inAddrBits
  · simp [h, Memory.read_write]
  · simp [h]

theorem putIn_eq (s : State) (a : Nat) (v : Byte) : s.putIn a v = { s with inMem := (s.putIn a v).inMem } := by
  unfold State.putIn; split <;> rfl

theorem putIn_wf (s : State) (a : Nat) (v : Byte) (h : s.inMem.wf = true) : (s.putIn a v).inMem.wf = true := by
  unfold State.putIn; split
  · exact Memory.write_wf _ _ _ h
  · exact h

theorem putIn_within (s : State) (a : Nat) (v : Byte) (h : s.inMem.within (2 ^ s.params.inAddrBits) = true) :
    (s.putIn a v).inMem.within (2 ^ s.params.inAddrBits) = true := by
  unfold State.putIn; split
  · exact Memory.write_within _ _ _ _ ‹_› h
  · exact h

/-! ## Writing the output -/

/-- After a block write `OUT` holds the block. -/
theorem OutHolds_writeBlock {t : State} {m : Memory} {a : Nat} {bytes : List Byte} (h : t.outMem = m.writeBlock a bytes) :
    t.OutHolds a bytes := by
  intro i b hb
  have hi := (List.getElem?_eq_some_iff.mp hb).1
  rw [h, Memory.read_writeBlock, if_pos (by omega)]; simpa using hb

theorem OutHolds_putOut (s : State) (a : Nat) (bytes : List Byte) : (s.putOut a bytes).OutHolds a bytes :=
  OutHolds_writeBlock (putOut_outMem s a bytes)

/-- What `OUT` holds stays there when only addresses outside it are written. -/
theorem OutHolds_of_read_eq {s t : State} {a : Nat} {bytes : List Byte} (h : s.OutHolds a bytes)
    (hread : ∀ x, a ≤ x → x < a + bytes.length → t.outMem.read x = s.outMem.read x) : t.OutHolds a bytes := by
  intro i b hb
  have hi := (List.getElem?_eq_some_iff.mp hb).1
  rw [hread _ (by omega) (by omega)]; exact h i b hb

/-- Emitting a byte stores it at `OADDR` and leaves every other address alone. -/
theorem emitByte_read (s : State) (v : Byte) (a : Nat) :
    (s.emitByte v).outMem.read a = if a = s.oaddr.toNat then some v else s.outMem.read a := by
  simp [Memory.read_write]

/-! ## Host reads -/

/-- A host read changes the read data and, where the value is free, the free-value counter. -/
theorem answerReg_eq (s : State) (o : Option Nat) :
    (∃ v, o = some v ∧ s.answerReg o = { s with rdata := v })
    ∨ (o = none ∧ s.answerReg o
        = { s with rdata := (Config.regDraw s.params.dataBits s.draws).toNat, draws := s.draws + 1 }) := by
  cases o with
  | none => exact .inr ⟨rfl, rfl⟩
  | some v => exact .inl ⟨v, rfl, rfl⟩

theorem answerByte_eq (s : State) (o : Option Byte) :
    (∃ v, o = some v ∧ s.answerByte o = { s with rdata := v.toNat })
    ∨ (o = none ∧ s.answerByte o = { s with rdata := (Config.byteDraw s.draws).toNat, draws := s.draws + 1 }) := by
  cases o with
  | none => exact .inr ⟨rfl, rfl⟩
  | some v => exact .inl ⟨v, rfl, rfl⟩

@[simp] theorem answerReg_block (s : State) (o : Option Nat) : (s.answerReg o).block = s.block := by cases o <;> rfl
@[simp] theorem answerByte_block (s : State) (o : Option Byte) : (s.answerByte o).block = s.block := by cases o <;> rfl

/-- A byte that a host read returns fits the data word. -/
theorem answerByte_rdata_lt (s : State) (o : Option Byte) : (s.answerByte o).rdata < 256 := by
  cases o with
  | none => exact (Config.byteDraw s.draws).isLt
  | some v => exact v.isLt

/-- A register value that a host read returns fits the data word, if the registers of parametric width fit theirs. -/
theorem answerReg_rdata_lt {s : State} (h : s.WidthsOk) (r : RegNum) :
    (s.answerReg (readReg s r)).rdata < 2 ^ s.params.dataBits := by
  have hlen : 2 ^ s.params.lenBits ≤ 2 ^ s.params.dataBits := Nat.pow_le_pow_right (by decide) (lenBits_le_dataBits s.params)
  have h32 := two_pow_32_le s.params
  have fit : ∀ {n : Nat} (b : BitVec n), n ≤ 32 → b.toNat < 2 ^ s.params.dataBits := fun b hb =>
    Nat.lt_of_lt_of_le b.isLt (Nat.le_trans (Nat.pow_le_pow_right (by decide) hb) h32)
  suffices ∀ o, readReg s r = o → (s.answerReg o).rdata < 2 ^ s.params.dataBits from this _ rfl
  intro o ho
  cases o with
  | none => exact (Config.regDraw s.params.dataBits s.draws).isLt
  | some v =>
    show v < _
    unfold readReg at ho
    split at ho
    · cases ho; exact fit _ (by decide)
    · split at ho
      · cases ho; exact Nat.pos_of_ne_zero (by simp)
      · split at ho
        · split at ho <;> cases ho <;>
            first | exact fit _ (by decide) | exact Nat.lt_of_lt_of_le h.1 hlen | exact Nat.lt_of_lt_of_le h.2.1 hlen
        · cases ho

/-- The read-back of `IN`: an access at an address that exists, or none (log entry 28). -/
theorem hostReadBack_eq (a : Nat) (s : State) :
    (a < 2 ^ s.params.inAddrBits ∧ hostReadBack a s = s.answer (readIn s a).toNat)
    ∨ (2 ^ s.params.inAddrBits ≤ a ∧ hostReadBack a s = s) := by
  unfold hostReadBack
  by_cases h : a < 2 ^ s.params.inAddrBits
  · exact .inl ⟨h, if_pos h⟩
  · exact .inr ⟨Nat.le_of_not_lt h, if_neg h⟩

/-! ## Ownership -/

/-- A guarded host command is performed when not BUSY and ignored while BUSY (R55). -/
theorem whenHostOwns_eq (s p : State) :
    (s.st ≠ .busy ∧ whenHostOwns s p = .next p) ∨ (s.st = .busy ∧ whenHostOwns s p = .next s) := by
  cases h : s.st <;> simp [whenHostOwns, hostOwns, h]

theorem whenHostOwns_of_not_busy {s : State} (p : State) (h : s.st ≠ .busy) : whenHostOwns s p = .next p := by
  rcases whenHostOwns_eq s p with h1 | h1
  · exact h1.2
  · exact absurd h1.1 h

theorem whenHostOwns_of_busy {s : State} (p : State) (h : s.st = .busy) : whenHostOwns s p = .next s := by
  rcases whenHostOwns_eq s p with h1 | h1
  · exact absurd h h1.1
  · exact h1.2

end Sys2Proof.Machine
end

