-- ==== Sys2Proof/Laws/PerInstr.lean ====
section
/-! SUPPORT. One lemma per constructor of `Instr`: its words match its row of spec/opcode_table.json under the row's mask. -/

namespace Sys2Proof.Laws.RowPattern

/-- The word that a row's pattern is matched against, its low 32 bits. -/
def wordOf : Fetch → BitVec 32
  | .otbhdr _ word => word
  | .phase code _ => code.setWidth 32
  | .inwr _ v => v.setWidth 32
  | .regwr _ d => BitVec.ofNat 32 d
  | .regrd r => r.setWidth 32
  | .outrd a => BitVec.ofNat 32 a

/-- The `mask` and `match` of an instruction's row in spec/opcode_table.json. -/
def rowPattern : Instr → BitVec 32 × BitVec 32
  | .tTooSmall => (0, 0)
  | .tBaddimW0 _ _ _ => (0x00FF0000, 0)
  | .tBaddimH0 _ _ _ => (0x0000FF00, 0)
  | .tShort _ _ _ _ => (0, 0)
  | .tBaddepth _ _ _ _ => (0, 0)
  | .tConvert _ _ _ => (0x000000FF, 0x00000001)
  | .pChklen => (0xF, 0x1)
  | .pLatch => (0xF, 0x2)
  | .pChkdim => (0xF, 0x3)
  | .pChkdata => (0xF, 0x4)
  | .pChkdepth => (0xF, 0x5)
  | .kGeom => (0xF, 0x6)
  | .fFilehdr => (0xF, 0x7)
  | .fInfohdr => (0xF, 0x8)
  | .fPalette => (0xF, 0x9)
  | .kShift => (0xF, 0xA)
  | .uBit => (0xF, 0xA)
  | .kFlush => (0xF, 0xA)
  | .kPad => (0xF, 0xA)
  | .kNextrow => (0xF, 0xA)
  | .sFinish => (0xF, 0xB)
  | .hWrin _ _ => (0, 0)
  | .hWrlen _ => (0, 0)
  | .hStart => (0x00000001, 0x00000001)
  | .hClear => (0x00000003, 0x00000002)
  | .hRdreg _ => (0, 0)
  | .hRdout _ => (0, 0)

/-- The encoding of an instruction, under any parameters, matches the pattern of its row. -/
def Statement (i : Instr) : Prop := ∀ p : Params, wordOf (encode p i) &&& (rowPattern i).1 = (rowPattern i).2

/-- A header word with one byte masked out of it: only that byte counts. -/
theorem headerWordOf_and (u w h d : Byte) :
    headerWordOf u w h d &&& 0x00FF0000#32 = headerWordOf 0 w 0 0 ∧
    headerWordOf u w h d &&& 0x0000FF00#32 = headerWordOf 0 0 h 0 ∧
    headerWordOf u w h d &&& 0x000000FF#32 = headerWordOf 0 0 0 d := by
  refine ⟨?_, ?_, ?_⟩ <;>
  · apply BitVec.eq_of_getLsbD_eq
    intro j hj
    interval_cases j <;> simp only [BitVec.getLsbD_and, headerWordOf, BitVec.getLsbD_append] <;> simp

theorem tTooSmall : Statement .tTooSmall := fun _ => by simp [encode, wordOf, rowPattern]
theorem tBaddimW0 (u h d : Byte) : Statement (.tBaddimW0 u h d) := fun _ => (headerWordOf_and u 0 h d).1
theorem tBaddimH0 (u w d : Byte) : Statement (.tBaddimH0 u w d) := fun _ => (headerWordOf_and u w 0 d).2.1
theorem tShort (u w h d : Byte) : Statement (.tShort u w h d) := fun _ => by simp [rowPattern]
theorem tBaddepth (u w h d : Byte) : Statement (.tBaddepth u w h d) := fun _ => by simp [rowPattern]
theorem tConvert (u w h : Byte) : Statement (.tConvert u w h) := fun _ => (headerWordOf_and u w h 1).2.2
theorem pChklen : Statement .pChklen := fun _ => by simp [encode, wordOf, rowPattern]
theorem pLatch : Statement .pLatch := fun _ => by simp [encode, wordOf, rowPattern]
theorem pChkdim : Statement .pChkdim := fun _ => by simp [encode, wordOf, rowPattern]
theorem pChkdata : Statement .pChkdata := fun _ => by simp [encode, wordOf, rowPattern]
theorem pChkdepth : Statement .pChkdepth := fun _ => by simp [encode, wordOf, rowPattern]
theorem kGeom : Statement .kGeom := fun _ => by simp [encode, wordOf, rowPattern]
theorem fFilehdr : Statement .fFilehdr := fun _ => by simp [encode, wordOf, rowPattern]
theorem fInfohdr : Statement .fInfohdr := fun _ => by simp [encode, wordOf, rowPattern]
theorem fPalette : Statement .fPalette := fun _ => by simp [encode, wordOf, rowPattern]
theorem kShift : Statement .kShift := fun _ => by simp [encode, wordOf, rowPattern]
theorem uBit : Statement .uBit := fun _ => by simp [encode, wordOf, rowPattern]
theorem kFlush : Statement .kFlush := fun _ => by simp [encode, wordOf, rowPattern]
theorem kPad : Statement .kPad := fun _ => by simp [encode, wordOf, rowPattern]
theorem kNextrow : Statement .kNextrow := fun _ => by simp [encode, wordOf, rowPattern]
theorem sFinish : Statement .sFinish := fun _ => by simp [encode, wordOf, rowPattern]
theorem hWrin (a : Nat) (v : Byte) : Statement (.hWrin a v) := fun _ => by simp [rowPattern]
theorem hWrlen (n : Nat) : Statement (.hWrlen n) := fun _ => by simp [rowPattern]
theorem hStart : Statement .hStart := fun _ => by simp [encode, wordOf, rowPattern]
theorem hClear : Statement .hClear := fun _ => by simp [encode, wordOf, rowPattern]
theorem hRdreg (r : RegNum) : Statement (.hRdreg r) := fun _ => by simp [rowPattern]
theorem hRdout (a : Nat) : Statement (.hRdout a) := fun _ => by simp [rowPattern]

end Sys2Proof.Laws.RowPattern
end

