-- ==== Sys2Proof/Laws/Pixels.lean ====
section
/-! SUPPORT. The pixel bytes: the bits of a row byte, where a row byte stands, and output ranges put together. -/

namespace Sys2Proof.Machine

/-- Both admissible thresholds leave room for the header (R2, R84). -/
theorem three_le_tooSmallMax (p : TooSmallMax) : 3 ≤ p.toNat := by cases p <;> decide

/-- Bit `j` of a row byte is row bit `7 - j`, and a padding byte has no bit set (R102). -/
theorem rowbyte_getLsbD (body : List Byte) (w y k j : Nat) (hj : j < 8) :
    (rowbyte body w y k).getLsbD j = if bytesPerRow w ≤ k then false else rowbit body w y k (7 - j) := by
  unfold rowbyte
  by_cases h : k ≥ bytesPerRow w
  · simp [h]
  rw [if_neg h, if_neg h]
  simp only [List.range, List.range.loop, List.foldl]
  generalize hb0 : rowbit body w y k 0 = b0
  generalize hb1 : rowbit body w y k 1 = b1
  generalize hb2 : rowbit body w y k 2 = b2
  generalize hb3 : rowbit body w y k 3 = b3
  generalize hb4 : rowbit body w y k 4 = b4
  generalize hb5 : rowbit body w y k 5 = b5
  generalize hb6 : rowbit body w y k 6 = b6
  generalize hb7 : rowbit body w y k 7 = b7
  interval_cases j <;> simp only [Nat.sub_zero, Nat.reduceSub, hb0, hb1, hb2, hb3, hb4, hb5, hb6, hb7] <;>
    (clear hb0 hb1 hb2 hb3 hb4 hb5 hb6 hb7; revert b0 b1 b2 b3 b4 b5 b6 b7; decide)

/-- One more row is appended below (R103). -/
theorem pixeldata_succ (w h : Nat) (body : List Byte) :
    pixeldata w (h + 1) body = pixeldata w h body ++ rowBytes body w h := by
  unfold pixeldata; rw [List.range_succ, List.flatMap_append]; simp

theorem pixeldata_length (w h : Nat) (body : List Byte) : (pixeldata w h body).length = imageDataSize w h := by
  induction h with
  | zero => simp [pixeldata, imageDataSize]
  | succ h ih => rw [pixeldata_succ, List.length_append, ih, rowBytes_length, imageDataSize, imageDataSize, Nat.mul_succ]

/-- The byte at offset `paddedBytesPerRow*y + k` of the pixel data is row byte `k` of row `y` (R103). -/
theorem pixeldata_getElem? (body : List Byte) (w y k : Nat) (hk : k < paddedBytesPerRow w) :
    ∀ h, y < h → (pixeldata w h body)[paddedBytesPerRow w * y + k]? = some (rowbyte body w y k) := by
  intro h
  induction h with
  | zero => intro hy; omega
  | succ h ih =>
    intro hy
    rw [pixeldata_succ]
    rcases Nat.lt_or_ge y h with hlt | hge
    · have h1 : paddedBytesPerRow w * (y + 1) ≤ paddedBytesPerRow w * h := Nat.mul_le_mul_left _ hlt
      rw [Nat.mul_succ] at h1
      rw [List.getElem?_append_left (by rw [pixeldata_length, imageDataSize]; omega)]
      exact ih hlt
    · obtain rfl : y = h := by omega
      rw [List.getElem?_append_right (by rw [pixeldata_length, imageDataSize]; omega), pixeldata_length, imageDataSize,
        Nat.add_sub_cancel_left]
      simp [rowBytes, hk]

/-- Two ranges of `OUT` that meet hold the appended bytes. -/
theorem OutHolds_append {s : State} {a : Nat} {x y : List Byte} (hx : s.OutHolds a x) (hy : s.OutHolds (a + x.length) y) :
    s.OutHolds a (x ++ y) := by
  intro i b hb
  rcases Nat.lt_or_ge i x.length with h | h
  · rw [List.getElem?_append_left h] at hb; exact hx i b hb
  · rw [List.getElem?_append_right h] at hb
    have h1 := hy (i - x.length) b hb
    rw [← h1]; congr 1; omega

end Sys2Proof.Machine
end

