-- ==== Sys2Proof/Laws/Step.lean ====
section
/-! SUPPORT. What one step can do: the decoder's answers and the inversion of the step, said once. -/

namespace Sys2Proof.Machine

/-! ## The decoder's answers -/

/-- The header bytes of a word put together from them. -/
theorem headerByte_headerWordOf (u w h d : Byte) :
    headerByte (headerWordOf u w h d) 0 = u ∧ headerByte (headerWordOf u w h d) 1 = w
    ∧ headerByte (headerWordOf u w h d) 2 = h ∧ headerByte (headerWordOf u w h d) 3 = d := by
  refine ⟨?_, ?_, ?_, ?_⟩ <;> simp only [headerByte, headerWordOf] <;> ext i hi <;>
    simp only [BitVec.getElem_extractLsb', BitVec.getLsbD_append] <;> rw [← BitVec.getLsbD_eq_getElem] <;>
    split_ifs <;> first | omega | (congr 1; omega)

/-- A header is always some class, and the class says which checks of R72 it passed. -/
theorem decodeHeader_cases (p : Params) (n : Nat) (word : HeaderWord) :
    (n ≤ p.tooSmallMax.toNat ∧ decodeHeader p n word = .tTooSmall)
    ∨ (p.tooSmallMax.toNat < n ∧ ∃ u w h d, w = headerByte word 1 ∧ h = headerByte word 2 ∧ d = headerByte word 3
        ∧ ((w = 0 ∧ decodeHeader p n word = .tBaddimW0 u h d)
          ∨ (w ≠ 0 ∧ h = 0 ∧ decodeHeader p n word = .tBaddimH0 u w d)
          ∨ (w ≠ 0 ∧ h ≠ 0 ∧ n - 4 < packedByteCount w.toNat h.toNat ∧ decodeHeader p n word = .tShort u w h d)
          ∨ (w ≠ 0 ∧ h ≠ 0 ∧ packedByteCount w.toNat h.toNat ≤ n - 4 ∧ d ≠ 1
              ∧ decodeHeader p n word = .tBaddepth u w h d)
          ∨ (w ≠ 0 ∧ h ≠ 0 ∧ packedByteCount w.toNat h.toNat ≤ n - 4 ∧ d = 1
              ∧ decodeHeader p n word = .tConvert u w h))) := by
  by_cases h1 : n ≤ p.tooSmallMax.toNat
  · exact .inl ⟨h1, by simp only [decodeHeader, if_pos h1]⟩
  · refine .inr ⟨by omega, headerByte word 0, _, _, _, rfl, rfl, rfl, ?_⟩
    by_cases h2 : headerByte word 1 = 0
    · exact .inl ⟨h2, by simp only [decodeHeader, if_neg h1, if_pos h2]⟩
    by_cases h3 : headerByte word 2 = 0
    · exact .inr (.inl ⟨h2, h3, by simp only [decodeHeader, if_neg h1, if_neg h2, if_pos h3]⟩)
    by_cases h4 : n - 4 < packedByteCount (headerByte word 1).toNat (headerByte word 2).toNat
    · exact .inr (.inr (.inl ⟨h2, h3, h4, by simp only [decodeHeader, if_neg h1, if_neg h2, if_neg h3, if_pos h4]⟩))
    by_cases h5 : headerByte word 3 = 1
    · exact .inr (.inr (.inr (.inr ⟨h2, h3, by omega, h5, by
        simp only [decodeHeader, if_neg h1, if_neg h2, if_neg h3, if_neg h4, if_neg (not_not.mpr h5)]⟩)))
    · exact .inr (.inr (.inr (.inl ⟨h2, h3, by omega, h5, by
        simp only [decodeHeader, if_neg h1, if_neg h2, if_neg h3, if_neg h4, if_pos h5]⟩)))

/-- Phase 10 selects by the loop counters (R71). -/
theorem decodePix_cases (c : LoopCounters) :
    (c.x.toNat < c.width.toNat ∧ decodePix c = .kShift)
    ∨ (c.width.toNat ≤ c.x.toNat ∧ c.nacc ≠ 0 ∧ decodePix c = .kFlush)
    ∨ (c.width.toNat ≤ c.x.toNat ∧ c.nacc = 0 ∧ c.kb.toNat < c.pbpr.toNat ∧ decodePix c = .kPad)
    ∨ (c.width.toNat ≤ c.x.toNat ∧ c.nacc = 0 ∧ c.pbpr.toNat ≤ c.kb.toNat ∧ decodePix c = .kNextrow) := by
  simp only [decodePix, BitVec.lt_def]
  by_cases h1 : c.x.toNat < c.width.toNat
  · exact .inl ⟨h1, if_pos h1⟩
  by_cases h2 : c.nacc = 0
  · by_cases h3 : c.kb.toNat < c.pbpr.toNat
    · exact .inr (.inr (.inl ⟨by omega, h2, h3, by rw [if_neg h1, if_neg (not_not.mpr h2), if_pos h3]⟩))
    · exact .inr (.inr (.inr ⟨by omega, h2, by omega, by rw [if_neg h1, if_neg (not_not.mpr h2), if_neg h3]⟩))
  · exact .inr (.inl ⟨by omega, h2, by rw [if_neg h1, if_pos h2]⟩)

/-- The operations a phase code can select, each with its code (R71). -/
theorem decodePhase_ok {code : BitVec 4} {c : LoopCounters} {i : Instr} (h : decodePhase code c = .ok i) :
    (code = 1 ∧ i = .pChklen) ∨ (code = 2 ∧ i = .pLatch) ∨ (code = 3 ∧ i = .pChkdim) ∨ (code = 4 ∧ i = .pChkdata)
    ∨ (code = 5 ∧ i = .pChkdepth) ∨ (code = 6 ∧ i = .kGeom) ∨ (code = 7 ∧ i = .fFilehdr) ∨ (code = 8 ∧ i = .fInfohdr)
    ∨ (code = 9 ∧ i = .fPalette) ∨ (code = 10 ∧ i = decodePix c) ∨ (code = 11 ∧ i = .sFinish) := by
  have hcode : code = BitVec.ofNat 4 code.toNat := by simp
  have hlt := code.isLt
  unfold decodePhase at h
  split at h <;> first | (cases h; rename_i heq; rw [heq] at hcode; simp [hcode]) | cases h

/-- Every code from 1 to 11 selects an operation. -/
theorem decodePhase_total {code : BitVec 4} (c : LoopCounters) (h1 : code ≠ 0) (h2 : code.toNat ≤ 11) :
    ∃ i, decodePhase code c = .ok i := by
  have h3 : code.toNat ≠ 0 := fun h => h1 (BitVec.eq_of_toNat_eq (by simpa using h))
  have h4 : code.toNat = 1 ∨ code.toNat = 2 ∨ code.toNat = 3 ∨ code.toNat = 4 ∨ code.toNat = 5 ∨ code.toNat = 6
      ∨ code.toNat = 7 ∨ code.toNat = 8 ∨ code.toNat = 9 ∨ code.toNat = 10 ∨ code.toNat = 11 := by omega
  unfold decodePhase
  rcases h4 with h | h | h | h | h | h | h | h | h | h | h <;> rw [h] <;> exact ⟨_, rfl⟩

/-- What a register write can stand for (R45, R69); a length takes the low bits (R25). -/
theorem decodeRegWrite_ok {p : Params} {r : RegNum} {d : Nat} {i : Instr} (h : decodeRegWrite p r d = .ok i) :
    (r = 0 ∧ d.testBit 0 = true ∧ i = .hStart) ∨ (r = 0 ∧ d.testBit 0 = false ∧ d.testBit 1 = true ∧ i = .hClear)
    ∨ (r = 3 ∧ i = .hWrlen (d % 2 ^ p.lenBits)) := by
  unfold decodeRegWrite decodeCtrl at h
  split at h
  · split at h
    · cases h; simp_all
    · split at h
      · cases h; simp_all
      · cases h
  · split at h
    · cases h; simp_all
    · cases h

/-- An operand is decoded exactly where it fits its width. -/
theorem fits_ok {bits n : Nat} {a : Except DecodeError Instr} {i : Instr} (h : fits bits n a = .ok i) :
    n < 2 ^ bits ∧ a = .ok i := by
  unfold fits at h
  split at h
  · exact ⟨‹_›, h⟩
  · cases h

theorem fits_of_lt {bits n : Nat} (a : Except DecodeError Instr) (h : n < 2 ^ bits) : fits bits n a = a := if_pos h

theorem fits_of_le {bits n : Nat} (a : Except DecodeError Instr) (h : 2 ^ bits ≤ n) :
    fits bits n a = .error (.notExpressible n) := if_neg (Nat.not_lt.mpr h)

/-- Outside phases, a word that stands for nothing is passed over, never a fault. -/
theorem decode_error_ignored {p : Params} {f : Fetch} {e : DecodeError} (h : decode p f = .error e)
    (hf : ∀ code c, f ≠ .phase code c) (s : State) : onDecodeError e s = .next s := by
  cases e with
  | reservedPhase c =>
    exfalso
    cases f with
    | phase code c => exact hf _ _ rfl
    | otbhdr n word => cases h
    | regrd r => cases h
    | inwr a v => simp only [decode, fits] at h; split at h <;> cases h
    | outrd a => simp only [decode, fits] at h; split at h <;> cases h
    | regwr r d =>
      simp only [decode, fits, decodeRegWrite, decodeCtrl] at h
      repeat' first | cases h | split at h
  | noCommand => rfl
  | writeIgnored r => rfl
  | notExpressible n => rfl

/-! ## Inversion of the step -/

/-- Who moves in a step from `s`: the state with the turn taken off the list, and the turn (the core, when no turn is left). -/
def nextTurn (s : State) : Turn × State :=
  match s.turns with
  | [] => (.core, s)
  | t :: ts => (t, { s with turns := ts })

theorem step_eq_takeTurn (s : State) : step s = takeTurn (nextTurn s).1 (nextTurn s).2 := by
  unfold step nextTurn; cases s.turns <;> rfl

/-- A core turn runs the operation that `PHASE` selects while BUSY, and nothing otherwise (R135). -/
theorem coreTurn_next {s t : State} (h : coreTurn s = .next t) :
    (s.st ≠ .busy ∧ t = s) ∨ (s.st = .busy ∧ ∃ i, decode s.params (coreFetch s) = .ok i ∧ exec i s = .next t) := by
  unfold coreTurn at h
  by_cases hb : s.st = .busy
  · rw [if_pos hb] at h
    unfold runFetch at h
    split at h
    · exact .inr ⟨hb, _, ‹_›, h⟩
    · rename_i e he
      cases e with
      | reservedPhase c => cases h
      | noCommand => exact absurd he (by simp only [coreFetch, decode, decodePhase]; split <;> simp)
      | writeIgnored r => exact absurd he (by simp only [coreFetch, decode, decodePhase]; split <;> simp)
      | notExpressible n => exact absurd he (by simp only [coreFetch, decode, decodePhase]; split <;> simp)
  · rw [if_neg hb] at h; cases h; exact .inl ⟨hb, rfl⟩

/-- A transaction turn runs the class of the input (R72). -/
theorem takeTurn_convert (s : State) :
    takeTurn .convert s = exec (decodeHeader s.params s.inLen (headerWord s.begin)) s := rfl

/-- A host turn runs the instruction its word stands for, or is passed over. -/
theorem runFetch_cases (f : Fetch) (hf : ∀ code c, f ≠ .phase code c) (s : State) :
    (∃ i, decode s.params f = .ok i ∧ runFetch f s = exec i s)
    ∨ (∃ e, decode s.params f = .error e ∧ runFetch f s = .next s) := by
  unfold runFetch
  cases h : decode s.params f with
  | ok i => exact .inl ⟨i, rfl, rfl⟩
  | error e => exact .inr ⟨e, rfl, decode_error_ignored h hf s⟩

/-- Where the core cannot be, a header class is ignored like the H.START it begins with. -/
theorem exec_class_of_busy {u t : State} (hb : u.st = .busy) (p : Params) (n : Nat) (word : HeaderWord)
    (h : exec (decodeHeader p n word) u = .next t) : t = u := by
  rcases decodeHeader_cases p n word with ⟨_, e⟩ | ⟨_, x, w, hh, d, _, _, _, ⟨_, e⟩ | ⟨_, _, e⟩ | ⟨_, _, _, e⟩ | ⟨_, _, _, _, e⟩ |
    ⟨hw, hh0, _, _, e⟩⟩ <;> rw [e] at h
  · exact (Host.Outcome.next.inj ((whenHostOwns_of_busy _ hb).symm.trans h)).symm
  · exact (Host.Outcome.next.inj ((whenHostOwns_of_busy _ hb).symm.trans h)).symm
  · exact (Host.Outcome.next.inj ((whenHostOwns_of_busy _ hb).symm.trans h)).symm
  · exact (Host.Outcome.next.inj ((whenHostOwns_of_busy _ hb).symm.trans h)).symm
  · exact (Host.Outcome.next.inj ((whenHostOwns_of_busy _ hb).symm.trans h)).symm
  · have h' : execTConvert x w hh u = .next t := h
    unfold execTConvert at h'
    rw [if_neg (not_or.mpr ⟨hw, hh0⟩)] at h'
    exact (Host.Outcome.next.inj ((whenHostOwns_of_busy _ hb).symm.trans h')).symm

/-- The state with the next turn taken off the list. -/
def untaken (s : State) : State := { s with turns := s.turns.tail }

theorem nextTurn_snd (s : State) : (nextTurn s).2 = untaken s := by
  unfold nextTurn untaken
  cases h : s.turns with
  | nil => cases s; cases h; rfl
  | cons t ts => rfl

/-- Everything a step that answers a next state can have done to the state with the turn taken off the list: nothing;
a core operation; a whole transaction; reset; a host command; a host read. -/
theorem step_next_cases {s t : State} (h : step s = .next t) :
    t = (untaken s)
    ∨ ((s.turns = [] ∨ s.turns.head? = some .core) ∧ s.st = .busy
        ∧ ∃ i, decode (untaken s).params (coreFetch (untaken s)) = .ok i ∧ exec i (untaken s) = .next t)
    ∨ (s.turns.head? = some .convert ∧ s.st ≠ .busy
        ∧ exec (decodeHeader s.params s.inLen (headerWord (untaken s).begin)) (untaken s) = .next t)
    ∨ (s.turns.head? = some .reset ∧ t = (untaken s).resetBlock)
    ∨ (s.st ≠ .busy ∧ ((∃ a v, s.turns.head? = some (.inWrite a v) ∧ t = (untaken s).putIn a v) ∨ (∃ n, t = (untaken s).putLength n)
        ∨ (t = (untaken s).begin ∧ ∃ d, s.turns.head? = some (.regWrite 0 d) ∧ d % 2 = 1) ∨ t = (untaken s).toIdle))
    ∨ (∃ v n, (s.WidthsOk → v < 2 ^ s.params.dataBits) ∧ t = { (untaken s) with rdata := v, draws := n }) := by
  rw [step_eq_takeTurn, nextTurn_snd] at h
  have h32 := two_pow_32_le s.params
  have byteRead : ∀ o u, (untaken s).answerByte o = u →
      ∃ v n, (s.WidthsOk → v < 2 ^ s.params.dataBits) ∧ u = { (untaken s) with rdata := v, draws := n } := by
    rintro o u rfl
    have hlt : ((untaken s).answerByte o).rdata < 2 ^ s.params.dataBits :=
      Nat.lt_of_lt_of_le (answerByte_rdata_lt _ o) (Nat.le_trans (by decide) h32)
    rcases answerByte_eq (untaken s) o with ⟨v, _, h2⟩ | ⟨_, h2⟩ <;> rw [h2] at hlt ⊢ <;> exact ⟨_, _, fun _ => hlt, rfl⟩
  unfold nextTurn at h
  cases hts : s.turns with
  | nil =>
    rw [hts] at h
    rcases coreTurn_next h with ⟨_, h1⟩ | ⟨h1, h2⟩
    · exact .inl h1
    · exact .inr (.inl ⟨.inl rfl, h1, h2⟩)
  | cons c ts =>
    rw [hts] at h
    cases c with
    | core =>
      rcases coreTurn_next h with ⟨_, h1⟩ | ⟨h1, h2⟩
      · exact .inl h1
      · exact .inr (.inl ⟨.inr rfl, h1, h2⟩)
    | convert =>
      dsimp only at h; rw [takeTurn_convert] at h
      by_cases hb : s.st = .busy
      · exact .inl (exec_class_of_busy (u := untaken s) hb _ _ _ h)
      · exact .inr (.inr (.inl ⟨rfl, hb, h⟩))
    | reset => exact .inr (.inr (.inr (.inl ⟨rfl, (Host.Outcome.next.inj h).symm⟩)))
    | inWrite a v =>
      rcases runFetch_cases (.inwr a v) (fun _ _ h => by cases h) (untaken s) with ⟨i, h1, h2⟩ | ⟨_, _, h2⟩
      · cases (fits_ok h1).2
        rcases whenHostOwns_eq (untaken s) ((untaken s).putIn a v) with ⟨hb, h3⟩ | ⟨_, h3⟩
        · exact .inr (.inr (.inr (.inr (.inl ⟨hb, .inl ⟨a, v, rfl, (Host.Outcome.next.inj ((h2.trans h3).symm.trans h)).symm⟩⟩))))
        · exact .inl (Host.Outcome.next.inj ((h2.trans h3).symm.trans h)).symm
      · exact .inl (Host.Outcome.next.inj (h2.symm.trans h)).symm
    | inRead a =>
      have h1 := Host.Outcome.next.inj h
      rcases hostReadBack_eq a (untaken s) with ⟨_, h2⟩ | ⟨_, h2⟩
      · have hlt : (readIn (untaken s) a).toNat < 2 ^ s.params.dataBits :=
          Nat.lt_of_lt_of_le (readIn (untaken s) a).isLt (Nat.le_trans (by decide) h32)
        exact .inr (.inr (.inr (.inr (.inr ⟨_, _, fun _ => hlt, h1.symm.trans h2⟩))))
      · exact .inl (h1.symm.trans h2)
    | regWrite r d =>
      rcases runFetch_cases (.regwr r d) (fun _ _ h => by cases h) (untaken s) with ⟨i, h1, h2⟩ | ⟨_, _, h2⟩
      · have h := h2.symm.trans h
        rcases decodeRegWrite_ok (fits_ok h1).2 with ⟨rfl, hd, rfl⟩ | ⟨_, _, _, rfl⟩ | ⟨_, rfl⟩
        · rcases whenHostOwns_eq (untaken s) (untaken s).begin with ⟨hb, h3⟩ | ⟨_, h3⟩
          · have hodd : d % 2 = 1 := by simpa [Nat.testBit_zero] using hd
            exact .inr (.inr (.inr (.inr (.inl ⟨hb, .inr (.inr (.inl
              ⟨(Host.Outcome.next.inj (h3.symm.trans h)).symm, d, rfl, hodd⟩))⟩))))
          · exact .inl (Host.Outcome.next.inj (h3.symm.trans h)).symm
        · rcases whenHostOwns_eq (untaken s) (untaken s).toIdle with ⟨hb, h3⟩ | ⟨_, h3⟩
          · exact .inr (.inr (.inr (.inr (.inl ⟨hb, .inr (.inr (.inr (Host.Outcome.next.inj (h3.symm.trans h)).symm))⟩))))
          · exact .inl (Host.Outcome.next.inj (h3.symm.trans h)).symm
        · rcases whenHostOwns_eq (untaken s) ((untaken s).putLength (d % 2 ^ s.params.lenBits)) with ⟨hb, h3⟩ | ⟨_, h3⟩
          · exact .inr (.inr (.inr (.inr (.inl ⟨hb, .inr (.inl ⟨_, (Host.Outcome.next.inj (h3.symm.trans h)).symm⟩)⟩))))
          · exact .inl (Host.Outcome.next.inj (h3.symm.trans h)).symm
      · exact .inl (Host.Outcome.next.inj (h2.symm.trans h)).symm
    | regRead r =>
      have h1 : (untaken s).answerReg (readReg (untaken s) r) = t := Host.Outcome.next.inj h
      have hlt : s.WidthsOk → ((untaken s).answerReg (readReg (untaken s) r)).rdata < 2 ^ s.params.dataBits :=
        fun hw => answerReg_rdata_lt (s := untaken s) hw r
      rcases answerReg_eq (untaken s) (readReg (untaken s) r) with ⟨v, _, h2⟩ | ⟨_, h2⟩ <;> rw [h2] at hlt h1 <;>
        exact .inr (.inr (.inr (.inr (.inr ⟨_, _, hlt, h1.symm⟩))))
    | outRead a =>
      rcases runFetch_cases (.outrd a) (fun _ _ h => by cases h) (untaken s) with ⟨i, h1, h2⟩ | ⟨_, _, h2⟩
      · cases (fits_ok h1).2
        exact .inr (.inr (.inr (.inr (.inr (byteRead _ _ (Host.Outcome.next.inj (h2.symm.trans h)))))))
      · exact .inl (Host.Outcome.next.inj (h2.symm.trans h)).symm

/-- The three operations of stage F, each as one record update (R127 to R129). Stated here once, because comparing the written
buffers by evaluation is slow. -/
theorem exec_fFilehdr (s : State) : exec .fFilehdr s = .next
    { s with outMem := s.outMem.writeBlock 0 (fileHeader s.params s.fsize.toNat), oaddr := 14, phase := 8 } := by
  simp only [exec, execFFilehdr, State.setPhase, State.putOut]

theorem exec_fInfohdr (s : State) : exec .fInfohdr s = .next
    { s with outMem := s.outMem.writeBlock 14 (infoHeader s.width.toNat s.height.toNat s.img.toNat), oaddr := 54, phase := 9 } := by
  simp only [exec, execFInfohdr, State.setPhase, State.putOut]

theorem exec_fPalette (s : State) : exec .fPalette s = .next
    { s with outMem := s.outMem.writeBlock 54 palette, oaddr := 62, phase := 10 } := by
  simp only [exec, execFPalette, State.setPhase, State.putOut]

/-- K.SHIFT: its two outcomes, each as one record update. -/
theorem execKShift_eq (s : State) :
    (s.nacc = 7 ∧ execKShift s
      = .next ((emptyAcc ((nextPixel s).emitByte (shiftIn s.acc (invertBit (sourceBit s))))).setPhase 10))
    ∨ (s.nacc ≠ 7 ∧ execKShift s
      = .next ({ nextPixel s with acc := shiftIn s.acc (invertBit (sourceBit s)), nacc := s.nacc + 1 }.setPhase 10)) := by
  by_cases h : s.nacc = 7
  · exact .inl ⟨h, by simp only [execKShift, if_pos h]⟩
  · exact .inr ⟨h, by simp only [execKShift, if_neg h]⟩

/-- Everything a core operation can do in the state whose `PHASE` and counters select it: the phase, the condition, the next
state (R71, R136). -/
theorem core_operation_cases {s t : State} {i : Instr} (hi : decode s.params (coreFetch s) = .ok i) (h : exec i s = .next t) :
    (s.phase = 1 ∧ isTooSmall s = true ∧ t = s.reject 1)
    ∨ (s.phase = 1 ∧ isTooSmall s = false ∧ t = s.setPhase 2)
    ∨ (s.phase = 2 ∧ t = { s with width := inByte s 1, height := inByte s 2, depth := inByte s 3 }.setPhase 3)
    ∨ (s.phase = 3 ∧ hasBadDimension s = true ∧ t = s.reject 2)
    ∨ (s.phase = 3 ∧ hasBadDimension s = false ∧ t = s.setPhase 4)
    ∨ (s.phase = 4 ∧ isShort s = true ∧ t = (latchCounts s).reject 3)
    ∨ (s.phase = 4 ∧ isShort s = false ∧ t = (latchCounts s).setPhase 5)
    ∨ (s.phase = 5 ∧ hasBadDepth s = true ∧ t = s.reject 4)
    ∨ (s.phase = 5 ∧ hasBadDepth s = false ∧ t = s.setPhase 6)
    ∨ (s.phase = 6 ∧ t = (latchGeometry s).setPhase 7)
    ∨ (s.phase = 7 ∧ t = { s.putOut 0 (fileHeader s.params s.fsize.toNat) with oaddr := 14 }.setPhase 8)
    ∨ (s.phase = 8 ∧ t = { s.putOut 14 (infoHeader s.width.toNat s.height.toNat s.img.toNat) with oaddr := 54 }.setPhase 9)
    ∨ (s.phase = 9 ∧ t = { s.putOut 54 palette with oaddr := 62 }.setPhase 10)
    ∨ (s.phase = 10 ∧ s.x.toNat < s.width.toNat ∧ s.nacc = 7
        ∧ t = (emptyAcc ((nextPixel s).emitByte (shiftIn s.acc (invertBit (sourceBit s))))).setPhase 10)
    ∨ (s.phase = 10 ∧ s.x.toNat < s.width.toNat ∧ s.nacc ≠ 7
        ∧ t = { nextPixel s with acc := shiftIn s.acc (invertBit (sourceBit s)), nacc := s.nacc + 1 }.setPhase 10)
    ∨ (s.phase = 10 ∧ s.width.toNat ≤ s.x.toNat ∧ s.nacc ≠ 0
        ∧ t = (emptyAcc (s.emitByte (s.acc <<< (8 - s.nacc.toNat)))).setPhase 10)
    ∨ (s.phase = 10 ∧ s.width.toNat ≤ s.x.toNat ∧ s.nacc = 0 ∧ s.kb.toNat < s.pbpr.toNat ∧ t = (s.emitByte 0).setPhase 10)
    ∨ (s.phase = 10 ∧ s.width.toNat ≤ s.x.toNat ∧ s.nacc = 0 ∧ s.pbpr.toNat ≤ s.kb.toNat
        ∧ t = { s with y := s.y + 1, x := 0, kb := 0 }.setPhase (if s.y + 1 = s.height then 11 else 10))
    ∨ (s.phase = 11 ∧ t = { s with outLen := s.fsize, st := .done, phase := 0 }) := by
  rcases decodePhase_ok hi with ⟨h1, rfl⟩ | ⟨h1, rfl⟩ | ⟨h1, rfl⟩ | ⟨h1, rfl⟩ | ⟨h1, rfl⟩ | ⟨h1, rfl⟩ | ⟨h1, rfl⟩ | ⟨h1, rfl⟩ |
    ⟨h1, rfl⟩ | ⟨h1, e⟩ | ⟨h1, rfl⟩
  · have e := Host.Outcome.next.inj h
    cases hc : isTooSmall s <;> rw [hc] at e <;> simp [h1, ← e]
  · simp [h1, ← Host.Outcome.next.inj h]
  · have e := Host.Outcome.next.inj h
    cases hc : hasBadDimension s <;> rw [hc] at e <;> simp [h1, ← e]
  · have e := Host.Outcome.next.inj h
    cases hc : isShort s <;> rw [hc] at e <;> simp [h1, ← e]
  · have e := Host.Outcome.next.inj h
    cases hc : hasBadDepth s <;> rw [hc] at e <;> simp [h1, ← e]
  · simp [h1, ← Host.Outcome.next.inj h]
  · simp [h1, ← Host.Outcome.next.inj h]
  · simp [h1, ← Host.Outcome.next.inj h]
  · simp [h1, ← Host.Outcome.next.inj h]
  · rcases decodePix_cases { x := s.x, width := s.width, nacc := s.nacc, kb := s.kb, pbpr := s.pbpr } with
      ⟨c1, e2⟩ | ⟨c1, c2, e2⟩ | ⟨c1, c2, c3, e2⟩ | ⟨c1, c2, c3, e2⟩ <;> (rw [e2] at e; subst e; dsimp only at c1)
    · rcases execKShift_eq s with ⟨h7, h8⟩ | ⟨h7, h8⟩
      · have e := Host.Outcome.next.inj (h8.symm.trans h)
        simp [h1, h7, c1, ← e]
      · have e := Host.Outcome.next.inj (h8.symm.trans h)
        exact .inr (.inr (.inr (.inr (.inr (.inr (.inr (.inr (.inr (.inr (.inr (.inr (.inr (.inr (.inl
          ⟨h1, c1, h7, e.symm⟩))))))))))))))
    · exact .inr (.inr (.inr (.inr (.inr (.inr (.inr (.inr (.inr (.inr (.inr (.inr (.inr (.inr (.inr (.inl
        ⟨h1, c1, c2, (Host.Outcome.next.inj h).symm⟩)))))))))))))))
    · exact .inr (.inr (.inr (.inr (.inr (.inr (.inr (.inr (.inr (.inr (.inr (.inr (.inr (.inr (.inr (.inr (.inl
        ⟨h1, c1, c2, c3, (Host.Outcome.next.inj h).symm⟩))))))))))))))))
    · exact .inr (.inr (.inr (.inr (.inr (.inr (.inr (.inr (.inr (.inr (.inr (.inr (.inr (.inr (.inr (.inr (.inr (.inl
        ⟨h1, c1, c2, c3, (Host.Outcome.next.inj h).symm⟩)))))))))))))))))
  · exact .inr (.inr (.inr (.inr (.inr (.inr (.inr (.inr (.inr (.inr (.inr (.inr (.inr (.inr (.inr (.inr (.inr (.inr
      ⟨h1, (Host.Outcome.next.inj h).symm⟩)))))))))))))))))

/-- The whole transaction T.CONVERT from a block that is not BUSY, as one record update (R148, R149). -/
theorem execTConvert_eq {s : State} (hb : s.st ≠ .busy) (u : Byte) {w h : Byte} (hw : w ≠ 0) (hh : h ≠ 0) :
    execTConvert u w h s = .next
      { (endOfPixels (latchGeometry (latchCounts (withHeader w h 1 s.begin)))).putOut 0
          (encodeImage s.params w.toNat h.toNat s.begin.body) with
        outLen := (endOfPixels (latchGeometry (latchCounts (withHeader w h 1 s.begin)))).fsize, st := .done, phase := 0 } := by
  unfold execTConvert
  rw [if_neg (not_or.mpr ⟨hw, hh⟩)]
  exact whenHostOwns_of_not_busy _ hb

end Sys2Proof.Machine
end

