-- ==== Sys2Proof/Tests/Slice0.lean ====
section
/-! SUPPORT. The model's own tests: the WellFormed smoke, decoded words written from the spec's patterns, single steps whose
expected values stand in 95_test_vectors.md, and a witness for the hypotheses of each statement. -/

namespace Sys2Proof.Tests

open Sys2Proof Sys2Proof.Machine

/-! ## WellFormed: one ill-formed term for each check -/

theorem test_illFormed_tBaddimH0_zero_width : (Instr.tBaddimH0 0 0 1).wellFormed Params.default = false := by decide
theorem test_illFormed_tShort_zero_width : (Instr.tShort 0 0 2 1).wellFormed Params.default = false := by decide
theorem test_illFormed_tShort_zero_height : (Instr.tShort 0 16 0 1).wellFormed Params.default = false := by decide
theorem test_illFormed_tBaddepth_zero_width : (Instr.tBaddepth 0 0 1 2).wellFormed Params.default = false := by decide
theorem test_illFormed_tBaddepth_zero_height : (Instr.tBaddepth 0 8 0 2).wellFormed Params.default = false := by decide
theorem test_illFormed_tBaddepth_depth_one : (Instr.tBaddepth 0 8 1 1).wellFormed Params.default = false := by decide
theorem test_illFormed_tConvert_zero_width : (Instr.tConvert 0 0 1).wellFormed Params.default = false := by decide
theorem test_illFormed_tConvert_zero_height : (Instr.tConvert 0 8 0).wellFormed Params.default = false := by decide
/-- A body of one byte is never short: five bytes hold it, and four are TooSmall. -/
theorem test_illFormed_tShort_one_byte : (Instr.tShort 0 8 1 1).wellFormed Params.default = false := by decide
/-- The first address and the first length that the default widths of R2 cannot express. -/
theorem test_illFormed_operands : (Instr.hWrin 8192 0).wellFormed Params.default = false ∧
    (Instr.hWrlen 0x100000000).wellFormed Params.default = false ∧ (Instr.hRdout 16384).wellFormed Params.default = false := by
  decide

/-- Parameters with every width one above its least value and the other threshold (R2, D5, D6, D7). -/
def otherParams : Params :=
  { Params.default with tooSmallMax := .three, lenBitsAbove14 := 1, inAddrBitsAbove13 := 1, outAddrBitsAbove14 := 1 }

/-- Under wider buffers the same addresses are legal; under shorter lengths the first illegal length is `2^15`. -/
theorem test_wellFormed_other_widths : (Instr.hWrin 8192 0).wellFormed otherParams = true ∧
    (Instr.hRdout 16384).wellFormed otherParams = true ∧ (Instr.hWrlen 32767).wellFormed otherParams = true ∧
    (Instr.hWrlen 32768).wellFormed otherParams = false ∧ (Instr.tShort 0 8 1 1).wellFormed otherParams = true := by decide

/-! ## Decoding: words written out from the patterns of R61, R69, R71 and R72 -/

/-- The header words are the inputs V-P3, V-P5, V-P6, V-P8, V-P10, V-P13 of 95_test_vectors.md, byte 0 first. -/
theorem test_decode_header_classes :
    decode Params.default (.otbhdr 4 0b00000000_00000001_00000001_00000001) = .ok .tTooSmall ∧
    decode Params.default (.otbhdr 9 0b00000000_00000000_00000101_00000001) = .ok (.tBaddimW0 0 5 1) ∧
    decode Params.default (.otbhdr 5 0b00000000_00000101_00000000_00000001) = .ok (.tBaddimH0 0 5 1) ∧
    decode Params.default (.otbhdr 7 0b00000000_00010000_00000010_00000001) = .ok (.tShort 0 16 2 1) ∧
    decode Params.default (.otbhdr 5 0b00000000_00001000_00000001_00000010) = .ok (.tBaddepth 0 8 1 2) ∧
    decode Params.default (.otbhdr 5 0b10100111_00001000_00000001_00000001) = .ok (.tConvert 0xA7 8 1) := by decide

/-- The same four bytes under the other admissible threshold are one byte short (V-P3 and the note under the V-P table). -/
theorem test_decode_header_threshold_three :
    decode otherParams (.otbhdr 4 0x00010101) = .ok (.tShort 0 1 1 1) := by decide

theorem test_decode_phases :
    decode Params.default (.phase 0b0001 tableCounters) = .ok .pChklen ∧ decode Params.default (.phase 0b0010 tableCounters) = .ok .pLatch ∧
    decode Params.default (.phase 0b0011 tableCounters) = .ok .pChkdim ∧ decode Params.default (.phase 0b0100 tableCounters) = .ok .pChkdata ∧
    decode Params.default (.phase 0b0101 tableCounters) = .ok .pChkdepth ∧ decode Params.default (.phase 0b0110 tableCounters) = .ok .kGeom ∧
    decode Params.default (.phase 0b0111 tableCounters) = .ok .fFilehdr ∧ decode Params.default (.phase 0b1000 tableCounters) = .ok .fInfohdr ∧
    decode Params.default (.phase 0b1001 tableCounters) = .ok .fPalette ∧ decode Params.default (.phase 0b1011 tableCounters) = .ok .sFinish := by decide

/-- The counters are those of row 0 of V-K5: a pixel left, a partial byte left, a padding byte left, the row complete. -/
theorem test_decode_pix :
    decode Params.default (.phase 0b1010 { x := 2, width := 3, nacc := 2, kb := 0, pbpr := 4 }) = .ok .kShift ∧
    decode Params.default (.phase 0b1010 { x := 3, width := 3, nacc := 3, kb := 0, pbpr := 4 }) = .ok .kFlush ∧
    decode Params.default (.phase 0b1010 { x := 3, width := 3, nacc := 0, kb := 1, pbpr := 4 }) = .ok .kPad ∧
    decode Params.default (.phase 0b1010 { x := 3, width := 3, nacc := 0, kb := 4, pbpr := 4 }) = .ok .kNextrow := by decide

/-- R71: codes 0 and 12 to 15 select nothing; U.BIT's pattern is K.SHIFT's. -/
theorem test_decode_phase_edges :
    decode Params.default (.phase 0b0000 tableCounters) = .error (.reservedPhase 0) ∧
    decode Params.default (.phase 0b1100 tableCounters) = .error (.reservedPhase 12) ∧
    decode Params.default (.phase 0b1111 tableCounters) = .error (.reservedPhase 15) ∧
    decode Params.default (encode Params.default .uBit) = .ok .kShift := by decide

/-- V-H8 and V-H9 are the words `3` and `FFFFFFFC`; register numbers are those of R45. -/
theorem test_decode_host :
    decode Params.default (.regwr 0b0000 0x00000003) = .ok .hStart ∧ decode Params.default (.regwr 0b0000 0x00000002) = .ok .hClear ∧
    decode Params.default (.regwr 0b0000 0xFFFFFFFC) = .error .noCommand ∧ decode Params.default (.regwr 0b0011 5) = .ok (.hWrlen 5) ∧
    decode Params.default (.regwr 0b0001 0x00000001) = .error (.writeIgnored 1) ∧
    decode Params.default (.inwr 4 0b11111111) = .ok (.hWrin 4 0xFF) ∧ decode Params.default (.regrd 0b1001) = .ok (.hRdreg 9) ∧
    decode Params.default (.outrd 0b00000001000001) = .ok (.hRdout 65) := by decide

/-- An address or a data word that its width cannot express stands for no access (R141); a narrower `IN_LEN` takes the low bits
of the data word (R25). -/
theorem test_decode_widths :
    decode Params.default (.inwr 8192 1) = .error (.notExpressible 8192) ∧ decode otherParams (.inwr 8192 1) = .ok (.hWrin 8192 1) ∧
    decode Params.default (.outrd 16384) = .error (.notExpressible 16384) ∧
    decode Params.default (.regwr 0 0x100000001) = .error (.notExpressible 0x100000001) ∧
    decode otherParams (.regwr 3 0x00018005) = .ok (.hWrlen 5) := by decide

/-! ## Single steps -/

/-- The state an outcome leaves, if it is a next state. -/
def nextOf : Host.Outcome State Fault Refusal → Option State
  | .next s => some s
  | .fault _ => none
  | .refused _ => none

/-- Fields of the state that running `i` leaves. -/
def after {α : Type} (i : Instr) (s : State) (f : State → α) : Option α := (nextOf (exec i s)).map f

/-- A BUSY block in phase `p` with input length `n`. -/
def busyIn (p : BitVec 4) (n : Nat) : State := { State.reset with st := .busy, phase := p, inLen := n }

/-- `IN` holding the bytes from address 0. -/
def withIn (s : State) (bytes : List Byte) : State :=
  { s with inMem := Memory.writeBlock [] 0 bytes, inLen := bytes.length }

/-- The registers `STATE`, `ERR`, `WIDTH`, `HEIGHT`, `DEPTH`, `EXPECTED`, `ACTUAL`, `OUT_LEN` of the V-P table. -/
def results (s : State) : RunState × List Nat :=
  (s.st, [s.err.toNat, s.width.toNat, s.height.toNat, s.depth.toNat, s.expected.toNat, s.actual, s.outLen.toNat])

/-- The `n` locations of `OUT` from address `a` on. -/
def outAt (a n : Nat) (s : State) : List (Option Byte) := (List.range n).map fun i => s.outMem.read (a + i)

/-- V-P3: 4 bytes are TooSmall. -/
theorem test_chklen_rejects : after .pChklen (busyIn 1 4) (fun t => (t.st, t.err, t.phase)) = some (.error, 1, 0) := by decide
/-- V-P4: 5 bytes are not. -/
theorem test_chklen_passes : after .pChklen (busyIn 1 5) (fun t => (t.st, t.err, t.phase)) = some (.busy, 0, 2) := by decide

/-- P2: the header `00 09 02 01`. -/
theorem test_latch : after .pLatch (withIn (busyIn 2 0) [0x00, 0x09, 0x02, 0x01, 0xA5, 0xC3, 0x40])
    (fun t => (t.width, t.height, t.depth, t.phase)) = some (9, 2, 1, 3) := by decide

/-- V-P6: height 0. -/
theorem test_chkdim_rejects : after .pChkdim { busyIn 3 5 with width := 5, height := 0, depth := 1 }
    (fun t => (t.st, t.err, t.width, t.phase)) = some (.error, 2, 5, 0) := by decide

/-- V-P8: `EXPECTED = 4`, `ACTUAL = 3`. -/
theorem test_chkdata_rejects : after .pChkdata { busyIn 4 7 with width := 16, height := 2, depth := 1 }
    (fun t => (t.st, t.err, t.expected, t.actual)) = some (.error, 3, 4, 3) := by decide
/-- V-P15: the largest image, exactly enough. -/
theorem test_chkdata_passes : after .pChkdata { busyIn 4 8133 with width := 255, height := 255, depth := 1 }
    (fun t => (t.st, t.phase, t.expected, t.actual)) = some (.busy, 5, 8129, 8129) := by decide

/-- V-P11: depth 0. -/
theorem test_chkdepth_rejects : after .pChkdepth { busyIn 5 5 with width := 8, height := 1, depth := 0 }
    (fun t => (t.st, t.err, t.phase)) = some (.error, 4, 0) := by decide

/-- The geometry table of section 2.3, 225 by 255 and 33 by 1. -/
theorem test_geom : after .kGeom { busyIn 6 0 with width := 225, height := 255 }
      (fun t => (t.bpr, t.pbpr, t.img, t.fsize)) = some (29, 32, 8160, 8222) ∧
    after .kGeom { busyIn 6 0 with width := 33, height := 1 }
      (fun t => (t.bpr, t.pbpr, t.img, t.fsize)) = some (5, 8, 8, 70) := by decide

/-- V-F4: `42 4D 1E 20 00 00 00 00 00 00 3E 00 00 00`. -/
theorem test_filehdr : after .fFilehdr { busyIn 7 0 with fsize := 8222 } (outAt 0 14)
    = some ([0x42, 0x4D, 0x1E, 0x20, 0, 0, 0, 0, 0, 0, 0x3E, 0, 0, 0].map some) := by decide

/-- V-F2 from offset 14 on. -/
theorem test_infohdr : after .fInfohdr { busyIn 8 0 with width := 9, height := 2, img := 8, oaddr := 14 } (outAt 14 40)
    = some ([0x28, 0, 0, 0, 0x09, 0, 0, 0, 0xFE, 0xFF, 0xFF, 0xFF, 1, 0, 1, 0, 0, 0, 0, 0, 0x08, 0, 0, 0,
        0x13, 0x0B, 0, 0, 0x13, 0x0B, 0, 0, 2, 0, 0, 0, 2, 0, 0, 0].map some) := by decide

/-- V-F1 from offset 54 on. -/
theorem test_palette : after .fPalette { busyIn 9 0 with oaddr := 54 } (fun t => (outAt 54 8 t, t.oaddr, t.phase))
    = some ([0, 0, 0, 0, 0xFF, 0xFF, 0xFF, 0].map some, 62, 10) := by decide

/-- V-U4: indices 9 and 15 of `A5 C3 40` are 1; index 18 is bit 5 of the byte `0100 0000`, so 0. -/
theorem test_bit : after .uBit { withIn (busyIn 10 0) [0, 9, 2, 1, 0xA5, 0xC3, 0x40] with sidx := 9 } (·.sbit) = some (some true) ∧
    after .uBit { withIn (busyIn 10 0) [0, 9, 2, 1, 0xA5, 0xC3, 0x40] with sidx := 15 } (·.sbit) = some (some true) ∧
    after .uBit { withIn (busyIn 10 0) [0, 9, 2, 1, 0xA5, 0xC3, 0x40] with sidx := 18 } (·.sbit) = some (some false) := by decide
/-- V-U2: index 8 of a one-byte body is absent. -/
theorem test_bit_absent : after .uBit { withIn (busyIn 10 0) [0, 8, 1, 1, 0xA5] with sidx := 8 } (·.sbit) = some none := by decide

/-- Row 0 of V-K5, third line: `X SIDX ACC NACC KB OADDR` from `2 2 01 2 0 62` to `3 3 010 3 0 62`. -/
theorem test_shift : after .kShift { withIn (busyIn 10 0) [0, 3, 3, 1, 0xAA, 0x80] with
      width := 3, height := 3, x := 2, sidx := 2, acc := 1, nacc := 2, oaddr := 62 }
    (fun t => (t.x, t.sidx, t.acc, t.nacc, t.kb, t.oaddr)) = some (3, 3, 2, 3, 0, 62) := by decide
/-- V-K6: the eighth pixel of row 0 completes the byte `5A`. -/
theorem test_shift_eighth : after .kShift { withIn (busyIn 10 0) [0, 9, 2, 1, 0xA5, 0xC3, 0x40] with
      width := 9, height := 2, x := 7, sidx := 7, acc := 0x2D, nacc := 7, oaddr := 62 }
    (fun t => (t.outMem.read 62, t.acc, t.nacc, t.kb, t.oaddr)) = some (some 0x5A, 0, 0, 1, 63) := by decide

/-- Row 0 of V-K5: `OUT[62] = 010 << 5 = 40`. -/
theorem test_flush : after .kFlush { busyIn 10 0 with x := 3, width := 3, acc := 2, nacc := 3, oaddr := 62 }
    (fun t => (t.outMem.read 62, t.acc, t.nacc, t.kb, t.oaddr)) = some (some 0x40, 0, 0, 1, 63) := by decide

/-- Row 0 of V-K5: `OUT[63] = 00`. -/
theorem test_pad : after .kPad { busyIn 10 0 with x := 3, width := 3, kb := 1, pbpr := 4, oaddr := 63 }
    (fun t => (t.outMem.read 63, t.kb, t.oaddr, t.phase)) = some (some 0, 2, 64, 10) := by decide

/-- Row 0 of V-K5: `Y` 0 to 1 and the column counters cleared. -/
theorem test_nextrow : after .kNextrow { busyIn 10 0 with x := 3, kb := 4, sidx := 3, y := 0, height := 3 }
    (fun t => (t.x, t.y, t.kb, t.sidx, t.phase)) = some (0, 1, 0, 3, 10) := by decide
/-- P1: after its only row the phase is FIN. -/
theorem test_nextrow_last : after .kNextrow { busyIn 10 0 with x := 8, kb := 4, sidx := 8, y := 0, height := 1 }
    (fun t => (t.x, t.y, t.kb, t.phase)) = some (0, 1, 0, 11) := by decide

/-- P1: `OUT_LEN = 66` and the output `done`. -/
theorem test_finish : after .sFinish { busyIn 11 5 with fsize := 66 }
    (fun t => (t.outLen, t.st, t.phase, doneOutput t, errOutput t)) = some (66, .done, 0, true, false) := by decide

/-- V-P1: the empty input. -/
theorem test_tooSmall : after .tTooSmall State.reset results = some (.error, [1, 0, 0, 0, 0, 0, 0]) := by decide
/-- V-P5. -/
theorem test_baddimW0 : after (.tBaddimW0 0 5 1) { State.reset with inLen := 9 } results
    = some (.error, [2, 0, 5, 1, 0, 0, 0]) := by decide
/-- V-P6. -/
theorem test_baddimH0 : after (.tBaddimH0 0 5 1) { State.reset with inLen := 5 } results
    = some (.error, [2, 5, 0, 1, 0, 0, 0]) := by decide
/-- V-P9. -/
theorem test_short : after (.tShort 0 16 2 2) { State.reset with inLen := 5 } results
    = some (.error, [3, 16, 2, 2, 4, 1, 0]) := by decide
/-- V-P10. -/
theorem test_baddepth : after (.tBaddepth 0 8 1 2) { State.reset with inLen := 5 } results
    = some (.error, [4, 8, 1, 2, 1, 1, 0]) := by decide

set_option maxRecDepth 8000 in
/-- V-P12 and V-K5: two excess bytes are ignored. -/
theorem test_convert : after (.tConvert 0 3 3) (withIn State.reset [0, 3, 3, 1, 0xAA, 0x80, 0xFF, 0xFF])
      (fun t => (results t, outAt 62 12 t))
    = some ((.done, [0, 3, 3, 1, 2, 4, 74]), [0x40, 0, 0, 0, 0xA0, 0, 0, 0, 0x40, 0, 0, 0].map some) := by decide

set_option maxRecDepth 8000 in
/-- V-F2 and V-K6: the 62 header bytes' first 26, and the pixel rows. -/
theorem test_convert_P2 : after (.tConvert 0 9 2) (withIn State.reset [0, 9, 2, 1, 0xA5, 0xC3, 0x40])
      (fun t => (outAt 0 26 t, outAt 62 8 t))
    = some ([0x42, 0x4D, 0x46, 0, 0, 0, 0, 0, 0, 0, 0x3E, 0, 0, 0, 0x28, 0, 0, 0, 0x09, 0, 0, 0, 0xFE, 0xFF, 0xFF, 0xFF].map some,
        [0x5A, 0, 0, 0, 0x79, 0, 0, 0].map some) := by decide

/-- The short-body branch of R125 (section 2.3): `encode(4, 3, [B0])`. -/
theorem test_encode_short_body : pixeldata 4 3 [0xB0] = [0x40, 0, 0, 0, 0xF0, 0, 0, 0, 0xF0, 0, 0, 0] := by decide

/-- A DONE block holding two output bytes. -/
def doneState : State :=
  { State.reset with st := .done, outLen := 2, outMem := [(0, 0x42), (1, 0x4D), (2, 0x07)], inLen := 5, width := 8, height := 1, depth := 1 }

/-- V-H7: a write of `IN` in DONE. -/
theorem test_wrin : after (.hWrin 4 0) doneState (fun t => (t.inMem.read 4, t.st, t.outLen)) = some (some 0, .done, 2) := by decide
/-- R141, R77: an address that `IN` does not have is passed over, and address 0 keeps what it holds (log entry 28). -/
theorem test_wrin_beyond : (nextOf (step { doneState with inMem := [(0, 7)], turns := [.inWrite 8192 1] })).map
    (fun t => (t.inMem, t.turns)) = some ([(0, 7)], []) := by decide
/-- V-H3: ignored while BUSY. -/
theorem test_wrin_busy : after (.hWrin 1 0xFF) (busyIn 4 5) (fun t => t.inMem.read 1) = some none := by decide
/-- V-H7. -/
theorem test_wrlen : after (.hWrlen 9) doneState (fun t => (t.inLen, t.st, t.outLen)) = some (9, .done, 2) := by decide
/-- V-H3. -/
theorem test_wrlen_busy : after (.hWrlen 0) (busyIn 4 5) (·.inLen) = some 5 := by decide
/-- V-H6: a new transaction from ERROR begins with every register clear. -/
theorem test_start : after .hStart { State.reset with st := .error, err := 3, expected := 4, actual := 3, inLen := 7 }
    (fun t => (t.st, t.phase, t.err, t.expected, t.actual, t.inLen)) = some (.busy, 1, 0, 0, 0, 7) := by decide
/-- V-H3. -/
theorem test_start_busy : after .hStart { busyIn 10 5 with x := 3 } (fun t => (t.phase, t.x)) = some (10, 3) := by decide
/-- V-H5. -/
theorem test_clear : after .hClear doneState (fun t => (t.st, t.outLen, t.width, t.height, t.depth, t.inLen))
    = some (.idle, 0, 0, 0, 0, 5) := by decide
/-- V-H11: `STATUS` in phase 10. -/
theorem test_rdreg_status : after (.hRdreg 1) (busyIn 10 5) (·.rdata) = some 0xA1 := by decide
/-- V-H10, and `IN_LEN` read in DONE. -/
theorem test_rdreg : after (.hRdreg 12) doneState (·.rdata) = some 0 ∧ after (.hRdreg 3) doneState (·.rdata) = some 5 := by decide
/-- V-H4: a byte below `OUT_LEN`. -/
theorem test_rdout : after (.hRdout 1) doneState (fun t => (t.rdata, t.draws)) = some (0x4D, 0) := by decide
/-- V-H4: at `OUT_LEN` a draw. -/
theorem test_rdout_above : after (.hRdout 2) doneState (·.draws) = some 1 := by decide

/-- V-H12: reset while BUSY. -/
theorem test_reset_event : (nextOf (step { busyIn 10 5 with turns := [.reset] })).map
    (fun t => (t.st, t.phase, t.inLen)) = some (.idle, 0, 0) := by decide

/-- The step runs what a table word placed by `withFetchWord` stands for: H.START, H.CLEAR, K.GEOM and T.BADDEPTH. -/
theorem test_withFetchWord :
    (nextOf (step (State.reset.withFetchWord 32 1))).map (·.st) = some .busy ∧
    (nextOf (step (State.reset.withFetchWord 8 6))).map (·.phase) = some 7 ∧
    (nextOf (step (State.reset.withFetchWord 32 0x00080102))).map (·.err) = some 4 ∧
    decodeTableWord 32 0x00080102 = some (.tBaddepth 0 8 1 2) := by decide

/-! ## Witnesses: the hypotheses of each statement are met, at the boundaries where its clauses meet -/

/-- P1 standing before its first K.SHIFT: input `00 08 01 01 FF` with byte 0 never written, the 62 header bytes in `OUT`. -/
def beforePixels : State :=
  { State.reset with
    st := .busy, phase := 10, inLen := 5, width := 8, height := 1, depth := 1, expected := 1, actual := 1
    bpr := 1, pbpr := 4, img := 4, fsize := 66, oaddr := 62, epoch := 1
    inMem := [(1, 8), (2, 1), (3, 1), (4, 0xFF)]
    outMem := Memory.writeBlock [] 0 (header62 Params.default 8 1) }

/-- `OutHolds` read off location by location. -/
theorem outHolds_of_lt {s : State} {a : Nat} {bytes : List Byte}
    (h : ∀ i, i < bytes.length → s.outMem.read (a + i) = bytes[i]?) : s.OutHolds a bytes := fun i b hb => by
  rw [h i (List.getElem?_eq_some_iff.mp hb).1, hb]

/-- `InputWritten` read off location by location, for an input inside `IN`. -/
theorem inputWritten_of_lt {s : State} {buf : List Byte} (hl : buf.length = s.inLen)
    (h : ∀ i, i < buf.length → 1 ≤ i → s.inMem.read i = buf[i]?) : s.InputWritten buf :=
  ⟨hl, fun i h1 _ b hb => by rw [h i (List.getElem?_eq_some_iff.mp hb).1 h1, hb]⟩

set_option maxRecDepth 8000 in
theorem beforePixels_phaseOk : beforePixels.PhaseOk where
  longEnough := by decide
  unlatched := by decide
  latched := by decide
  dimensions := by decide
  uncounted := by decide
  counted := by decide
  depthOne := by decide
  noGeometry := by decide
  geometry := fun _ => ⟨by decide, by decide, by decide, by decide⟩
  loops := fun h => absurd h (by decide)
  atStart := by decide
  afterFile := fun _ => outHolds_of_lt (by decide)
  atInfo := by decide
  afterInfo := fun _ => outHolds_of_lt (by decide)
  atPalette := by decide
  afterTable := fun _ => outHolds_of_lt (by decide)
  pixels := fun _ =>
    { yBound := by decide
      xBound := by decide
      kbBound := by decide
      index := by decide
      address := by decide
      inRow := by decide
      rowEnd := by decide
      accHeld := fun j hj => absurd hj (Nat.not_lt_zero j)
      accAbove := fun j _ => by simp [beforePixels, State.reset]
      rowsDone := fun y k hy => absurd hy (Nat.not_lt_zero y)
      rowSoFar := fun k hk => absurd hk (Nat.not_lt_zero k) }
  finished := fun h => absurd h (by decide)

set_option maxRecDepth 8000 in
/-- The invariant has a BUSY state in the middle of a transaction, with K.SHIFT enabled. -/
theorem witness_invariant : beforePixels.Inv ∧ beforePixels.st = .busy ∧ decode beforePixels.params (coreFetch beforePixels) = .ok .kShift ∧
    (nextOf (step beforePixels)).isSome = true :=
  ⟨{ buffers := ⟨by decide, by decide, by decide, by decide⟩
     widths := ⟨by decide, by decide, by decide⟩
     codes := ⟨by decide, by decide, by decide, by decide, by decide⟩
     running := fun _ => beforePixels_phaseOk
     results :=
      { idle := by decide
        error1 := by decide
        error2 := by decide
        error3 := by decide
        error4 := by decide
        done := fun h => absurd h (by decide) } }, rfl, by decide, by decide⟩

theorem witness_DecodeInvertsEncode : (Instr.tBaddepth 0xA7 255 255 0).wellFormed Params.default = true ∧
    Instr.tBaddepth 0xA7 255 255 0 ≠ .uBit ∧ Instr.kShift.wellFormed Params.default = true ∧
    (Instr.hWrin 8191 0xFF).wellFormed Params.default = true ∧ (Instr.hWrlen 0xFFFFFFFF).wellFormed Params.default = true ∧
    (Instr.hRdout 16383).wellFormed Params.default = true ∧ (Instr.tShort 0 9 1 1).wellFormed Params.default = true := by decide

theorem witness_DecodedInstructionIsWellFormed : decode Params.default (.regwr 0 3) = .ok .hStart := by decide

/-- Each class at the edge of its condition; the word is `00 10 02 01`, whose body needs 4 bytes. -/
theorem witness_HeaderClassIsTheFirstMatch :
    (0x00100201 : HeaderWord).toNat
      = (0 : Byte).toNat * 2 ^ 24 + (16 : Byte).toNat * 2 ^ 16 + (2 : Byte).toNat * 2 ^ 8 + (1 : Byte).toNat ∧
    (0x00000201 : HeaderWord).toNat = 0 * 2 ^ 24 + (0 : Byte).toNat * 2 ^ 16 + (2 : Byte).toNat * 2 ^ 8 + (1 : Byte).toNat ∧
    (0x00100001 : HeaderWord).toNat = 0 * 2 ^ 24 + (16 : Byte).toNat * 2 ^ 16 + (0 : Byte).toNat * 2 ^ 8 + (1 : Byte).toNat ∧
    (0x00100202 : HeaderWord).toNat = 0 * 2 ^ 24 + (16 : Byte).toNat * 2 ^ 16 + (2 : Byte).toNat * 2 ^ 8 + (2 : Byte).toNat ∧
    IsCeilDiv ((16 : Byte).toNat * (2 : Byte).toNat) 8 4 ∧ IsCeilDiv ((0 : Byte).toNat * (2 : Byte).toNat) 8 0 ∧
    (4 : Nat) ≤ TooSmallMax.four.toNat ∧ TooSmallMax.four.toNat < (5 : Nat) ∧
    (7 : Nat) - 4 < 4 ∧ 4 ≤ (8 : Nat) - 4 :=
  ⟨by decide, by decide, by decide, by decide, isCeilDiv_eight 32, isCeilDiv_eight 0, by decide, by decide, by decide, by decide⟩

theorem witness_PhaseCodeSelectsOperation :
    (7 : Byte).toNat < (8 : Byte).toNat ∧ (8 : Byte).toNat ≤ (8 : Byte).toNat ∧ (7 : BitVec 3) ≠ 0 ∧
    (3 : BitVec 6).toNat < (4 : BitVec 6).toNat ∧ (4 : BitVec 6).toNat ≤ (4 : BitVec 6).toNat ∧ 12 ≤ (12 : BitVec 4).toNat := by
  decide

theorem witness_ControlWordSelectsCommand :
    (0xFFFFFFFF : Nat) < 2 ^ Params.default.dataBits ∧ (0x00000001 : Nat) % 2 = 1 ∧ (0xFFFFFFFF : Nat) % 2 = 1 ∧ (0xFFFFFFFE : Nat) % 4 = 2 ∧
    (0xFFFFFFFC : Nat) % 4 = 0 := by decide

theorem witness_StepRunsTheDecodedInstruction :
    (busyIn 6 5).st = .busy ∧ decode Params.default (coreFetch (busyIn 6 5)) = .ok .kGeom ∧
    decode Params.default (classFetch (withIn State.reset [0, 8, 1, 1, 0xFF])) = .ok (.tConvert 0 8 1) ∧
    decode Params.default (.regwr 3 9) = .ok (.hWrlen 9) ∧ decode Params.default (.inwr 8191 9) = .ok (.hWrin 8191 9) ∧
    decode Params.default (.outrd 16383) = .ok (.hRdout 16383) := by decide

theorem witness_EndOfRunIsStable : doneState.st ≠ .busy ∧ doneState.turns = [] := by decide

theorem witness_ReservedPhaseFaults :
    (busyIn 0 5).st = .busy ∧ (busyIn 0 5).phase = 0 ∧ 12 ≤ (busyIn 12 5).phase.toNat ∧ (busyIn 12 5).turns = [] := by decide

theorem witness_HostAccessNeverDisturbsTheBlock :
    (Turn.outRead 0).isHostAccess = true ∧ (Turn.inRead 0).isHostAccess = true ∧ (busyIn 10 5).st = .busy := by decide

theorem witness_OtherRegisterWritesAreIgnored :
    (1 : RegNum) ≠ 0 ∧ (1 : RegNum) ≠ 3 ∧ (15 : RegNum) ≠ 0 ∧ (15 : RegNum) ≠ 3 ∧ (3 : RegNum) ≠ 0 ∧ (busyIn 1 5).st = .busy := by
  decide

theorem witness_HeaderChecks :
    (busyIn 1 4).inLen ≤ (busyIn 1 4).params.tooSmallMax.toNat ∧
    (busyIn 1 5).params.tooSmallMax.toNat < (busyIn 1 5).inLen ∧
    (busyIn 3 5).width.toNat = 0 ∧ (busyIn 3 5).height.toNat = 0 ∧ beforePixels.width.toNat ≠ 0 ∧ beforePixels.height.toNat ≠ 0 ∧
    (busyIn 5 5).depth.toNat ≠ 1 ∧ beforePixels.depth.toNat = 1 := by decide

theorem witness_HeaderLatch :
    4 ≤ (withIn State.reset [0, 1, 2, 3]).inLen ∧ (withIn State.reset [0, 1, 2, 3]).inMem.read 1 = some 1 ∧
    (withIn State.reset [0, 1, 2, 3]).inMem.read 2 = some 2 ∧ (withIn State.reset [0, 1, 2, 3]).inMem.read 3 = some 3 := by decide

/-- A 255 by 255 image with a body one byte short, and one with exactly enough. -/
theorem witness_BodyLengthCheck :
    4 ≤ (8132 : Nat) ∧ IsCeilDiv ((255 : Byte).toNat * (255 : Byte).toNat) 8 8129 ∧
    (8132 : Nat) - 4 < 8129 ∧ 8129 ≤ (8133 : Nat) - 4 :=
  ⟨by decide, isCeilDiv_eight 65025, by decide, by decide⟩

/-- V-P3: the TooSmall rejection is reached by the core from phase 1. -/
theorem witness_RejectionIsPrecise :
    (busyIn 1 4).st = .busy ∧ (busyIn 1 4).turns = [] ∧ (nextOf (step (busyIn 1 4))).map (·.st) = some .error := by decide

/-- The last bit of a one-byte body, and the first absent one. -/
theorem witness_SourceBitFetch :
    4 + (7 : BitVec 16).toNat / 8 < (5 : Nat) ∧ (5 : Nat) ≤ 4 + (8 : BitVec 16).toNat / 8 ∧
    beforePixels.inMem.read (4 + (7 : BitVec 16).toNat / 8) = some 0xFF := by decide

theorem witness_SourceBitIsSrcbit : (65025 : BitVec 16).toNat ≤ 65025 ∧ beforePixels.sidx.toNat ≤ 65025 := by decide

theorem witness_GeometryRegisters : IsCeilDiv (255 : Byte).toNat 8 32 ∧ IsCeilDiv 32 4 8 ∧ IsCeilDiv (0 : Byte).toNat 8 0 ∧
    IsCeilDiv 0 4 0 := ⟨isCeilDiv_eight 255, isCeilDiv_four 32, isCeilDiv_eight 0, isCeilDiv_four 0⟩

theorem witness_ShiftTakesOnePixel :
    (6 : BitVec 3).toNat < 7 ∧ (7 : BitVec 3).toNat = 7 ∧ 4 + beforePixels.sidx.toNat / 8 < beforePixels.inLen ∧
    beforePixels.inMem.read (4 + beforePixels.sidx.toNat / 8) = some 0xFF ∧
    (busyIn 10 4).inLen ≤ 4 + (busyIn 10 4).sidx.toNat / 8 := by decide

theorem witness_FlushWritesPartialByte : { beforePixels with nacc := 7 }.nacc ≠ 0 := by decide

theorem witness_NextRowOrFinish :
    beforePixels.y.toNat < beforePixels.height.toNat ∧ beforePixels.y.toNat + 1 = beforePixels.height.toNat ∧
    (254 : Byte).toNat < (255 : Byte).toNat ∧ (0 : Byte).toNat + 1 ≠ (255 : Byte).toNat := by decide

theorem witness_InfoHeaderBytes : beforePixels.height ≠ 0 := by decide

theorem witness_FinishPublishesTheResult : (nextOf (exec .sFinish (busyIn 11 5))).isSome = true := by decide

/-- For HostWritesInputAndLength, StartBeginsATransaction and ClearReturnsToIdle. -/
theorem witness_HostCommands : doneState.st ≠ .busy ∧ State.reset.st ≠ .busy ∧ beforePixels.st = .busy ∧
    8191 < 2 ^ doneState.params.inAddrBits ∧ 0xFFFFFFFF < 2 ^ doneState.params.lenBits ∧
    0xFFFFFFFF < 2 ^ doneState.params.dataBits := by decide

theorem witness_RegisterReads :
    10 ≤ (10 : RegNum).toNat ∧ 2 ≤ (2 : RegNum).toNat ∧ (2 : RegNum).toNat ≤ 9 ∧ 2 ≤ (9 : RegNum).toNat ∧ (9 : RegNum).toNat ≤ 9 ∧
    doneState.st ≠ .busy ∧ beforePixels.st = .busy := by decide

/-- The last byte of the result, the first address above it, and an address with no byte. -/
theorem witness_OutputReads :
    16383 < 2 ^ doneState.params.outAddrBits ∧ doneState.st = .done ∧ 1 < doneState.outLen.toNat ∧ doneState.outMem.read 1 = some 0x4D ∧
    doneState.outLen.toNat ≤ 2 ∧ doneState.outMem.read 3 = none ∧ State.reset.st ≠ .done := by
  decide

theorem witness_OutputsFallOnlyByStartOrClear :
    clearTurn.isHostAccess = true ∧
    (nextOf (step { doneState with turns := [clearTurn] })).map doneOutput = some false ∧ doneOutput doneState = true := by decide

/-- For the TooSmall, InvalidDimensions, Counting and Convert transactions: the shortest length with a header, the least and the
greatest dimension. -/
theorem witness_Transactions : doneState.st ≠ .busy ∧ 4 ≤ (4 : Nat) ∧ 4 ≤ doneState.inLen ∧
    IsCeilDiv ((1 : Byte).toNat * (1 : Byte).toNat) 8 1 ∧ (1 : Byte) ≠ 0 ∧ (255 : Byte) ≠ 0 :=
  ⟨by decide, by decide, by decide, isCeilDiv_eight 1, by decide, by decide⟩

theorem witness_TransactionsWhileBusyAndOutsideTheDomain :
    beforePixels.st = .busy ∧ decode Params.default (.otbhdr 4 0) = .ok .tTooSmall ∧
    decode Params.default (.otbhdr 5 0x00080101) = .ok (.tConvert 0 8 1) ∧
    2 ^ Params.default.inAddrBits ≤ 8192 ∧ 2 ^ Params.default.outAddrBits ≤ 16384 ∧
    2 ^ Params.default.dataBits ≤ 0x100000000 := by decide

/-- `00 10 02 01` with 3 and with 4 body bytes; 4 and 5 bytes at the threshold. -/
theorem witness_ParseChecksInOrder :
    IsCeilDiv ((16 : Byte).toNat * (2 : Byte).toNat) 8 4 ∧ ([0, 16, 2, 1] : List Byte).length ≤ Params.default.tooSmallMax.toNat ∧
    Params.default.tooSmallMax.toNat < ([0xFF] : List Byte).length + 4 ∧ (16 : Byte) ≠ 0 ∧ (2 : Byte) ≠ 0 ∧
    ([0xFF, 0xFF, 0xFF] : List Byte).length < 4 ∧ 4 ≤ ([0xFF, 0xFF, 0xFF, 0xFF] : List Byte).length :=
  ⟨isCeilDiv_eight 32, by decide, by decide, by decide, by decide, by decide, by decide⟩

theorem witness_EncodedLength : IsCeilDiv 255 8 32 ∧ IsCeilDiv 32 4 8 ∧ IsCeilDiv 1 8 1 ∧ IsCeilDiv 1 4 1 :=
  ⟨isCeilDiv_eight 255, isCeilDiv_four 32, isCeilDiv_eight 1, isCeilDiv_four 1⟩

/-- The last pixel of `encode(4, 3, [B0])`, which is absent, and the last one of its first row, which is present. -/
theorem witness_RoundTripBitFidelity : 2 < 3 ∧ 3 < 4 ∧ srcbit [0xB0] (2 * 4 + 3) = none ∧ srcbit [0xB0] (0 * 4 + 3) = some true := by
  decide

/-- The first bit after the last pixel, and the last bit of the last padding byte. -/
theorem witness_RowPaddingIsZero : 1 < 2 ∧ 1 < paddedBytesPerRow 9 ∧ 9 ≤ 8 * 1 + 1 ∧ 3 < paddedBytesPerRow 9 ∧ 9 ≤ 8 * 3 + 7 := by
  decide

set_option maxRecDepth 8000 in
/-- V-K3: the 7 unused bits of the body differ, the one used bit does not. -/
theorem witness_UnusedInputHasNoEffect :
    (convert Params.default [0, 1, 1, 1, 0x7F]).toOption.isSome = true ∧ ([0x00] : List Byte).length = ([0x7F] : List Byte).length ∧
    ∀ i, i < (1 : Byte).toNat * (1 : Byte).toNat → srcbit [0x00] i = srcbit [0x7F] i := by decide

theorem witness_StepKeepsBuffersCanonical :
    doneState.BuffersOk ∧ (nextOf (step { doneState with turns := [.inWrite 8191 1] })).isSome = true :=
  ⟨⟨by decide, by decide, by decide, by decide⟩, by decide⟩

theorem witness_StepKeepsCodesCoupled : (busyIn 4 5).CodesOk ∧ (nextOf (step (busyIn 4 5))).isSome = true :=
  ⟨⟨by decide, by decide, by decide, by decide, by decide⟩, by decide⟩

/-- A check passes, the same check rejects, S.FINISH, H.START and reset: each is a change of phase from a state with `CodesOk`. -/
theorem witness_PhaseChangesFollowTheTable :
    (busyIn 1 5).CodesOk ∧ (busyIn 1 5).turns.head? ≠ some .convert ∧ doneState.CodesOk ∧
    (nextOf (step (busyIn 1 5))).map (·.phase) = some 2 ∧ (nextOf (step (busyIn 1 4))).map (·.phase) = some 0 ∧
    (nextOf (step (busyIn 11 5))).map (·.phase) = some 0 ∧
    (nextOf (step { doneState with turns := [startTurn] })).map (·.phase) = some 1 ∧
    (nextOf (step { busyIn 10 5 with turns := [.reset] })).map (·.phase) = some 0 :=
  ⟨⟨by decide, by decide, by decide, by decide, by decide⟩, by decide, ⟨by decide, by decide, by decide, by decide, by decide⟩,
    by decide, by decide, by decide, by decide, by decide⟩

theorem witness_InputIsStableWhileBusy :
    beforePixels.st = .busy ∧ beforePixels.turns.head? ≠ some .reset ∧
    (nextOf (step { beforePixels with turns := [.inWrite 4 0] })).isSome = true ∧
    8191 < 2 ^ beforePixels.params.inAddrBits ∧ beforePixels.inMem.read 4 = some 0xFF ∧
    (∀ v, { doneState with turns := [.inWrite 4 0] }.turns.head? ≠ some (.inWrite 5 v)) ∧
    (nextOf (step { doneState with turns := [.inWrite 4 0] })).isSome = true :=
  ⟨by decide, by decide, by decide, by decide, by decide, fun v h => by simp at h, by decide⟩

/-- R51, R173: reading twice an address of `IN` that holds no value draws nothing anew. -/
theorem test_rdin_idempotent : (nextOf (runSteps 1 { State.reset with turns := [.inRead 7, .inRead 7] })).map (·.rdata) =
    (nextOf (runSteps 2 { State.reset with turns := [.inRead 7, .inRead 7] })).map (·.rdata) := rfl
/-- R40, R57: the host reads back what it wrote while BUSY. -/
theorem test_rdin_busy : (nextOf (step { busyIn 4 5 with inMem := [(4, 0xFF)], turns := [.inRead 4] })).map
    (fun t => (t.rdata, t.draws)) = some (0xFF, 0) := by decide

set_option maxRecDepth 8000 in
/-- The three ways `OUT` changes: the core in phase 7, a whole transaction, and reset. -/
theorem witness_OutputWrittenOnlyAfterTheChecks :
    (nextOf (step { busyIn 7 5 with fsize := 66 })).map (·.outMem.length) = some 14 ∧ (busyIn 7 5).outMem = [] ∧
    (nextOf (step { withIn State.reset [0, 8, 1, 1, 0xFF] with turns := [.convert] })).map (·.outMem.length) = some 66 ∧
    (nextOf (step { doneState with turns := [.reset] })).map (·.outMem) = some [] ∧ doneState.outMem ≠ [] := by decide

/-- A block may be loaded with more bytes than `IN` holds. -/
theorem witness_LoadPresentsTheInput : doneState.st ≠ .busy ∧
    (List.replicate 8193 (0 : Byte)).length < 2 ^ doneState.params.lenBits ∧
    2 ^ doneState.params.inAddrBits < (List.replicate 8193 (0 : Byte)).length :=
  ⟨by decide, by rw [List.length_replicate]; decide, by rw [List.length_replicate]; decide⟩

/-- A block loaded with `00 08 01 01 FF`. -/
def loaded : State := withIn State.reset [0, 8, 1, 1, 0xFF]

theorem witness_loaded_written : loaded.InputWritten [0x30, 8, 1, 1, 0xFF] := inputWritten_of_lt (by decide) (by decide)

set_option maxRecDepth 8000 in
/-- An accepted input and a rejected one, both written, and two blocks with different pasts that agree on the input. -/
theorem witness_TransactionComputesConvert :
    loaded.st ≠ .busy ∧ loaded.InputWritten [0x30, 8, 1, 1, 0xFF] ∧
    (convert loaded.params [0x30, 8, 1, 1, 0xFF]).toOption.isSome = true ∧
    State.reset.InputWritten [] ∧ convert State.reset.params [] = .error .tooSmall :=
  ⟨by decide, witness_loaded_written, by decide, inputWritten_of_lt (by decide) (by decide), by decide⟩

theorem witness_OutcomeForgetsThePast :
    loaded.st ≠ .busy ∧ { loaded with st := .error, err := 3, epoch := 7, outMem := [(0, 1)] }.st ≠ .busy ∧
    loaded.params = { loaded with st := .error, err := 3, epoch := 7, outMem := [(0, 1)] }.params ∧
    loaded.InputWritten [0x30, 8, 1, 1, 0xFF] ∧
    { loaded with st := .error, err := 3, epoch := 7, outMem := [(0, 1)] }.InputWritten [0x30, 8, 1, 1, 0xFF] :=
  ⟨by decide, by decide, by decide, witness_loaded_written, inputWritten_of_lt (by decide) (by decide)⟩

/-- Also for TransactionStepsAreBounded and EveryTransactionEnds. -/
theorem witness_CoreRunReachesTheTransactionResult :
    loaded.st ≠ .busy ∧ loaded.outMem.wf = true ∧ decode Params.default (classFetch loaded) = .ok (.tConvert 0 8 1) := by decide

/-- A busy block with host accesses around one core step that leaves it busy. -/
theorem witness_HostInterleavingHasNoEffect :
    (∀ t ∈ [Turn.inWrite 1 0xFF, .core, .regRead 2], t = .core ∨ t.isHostAccess = true) ∧
    (∀ j, j ≤ [Turn.inWrite 1 0xFF, .core, .regRead 2].count .core →
      (nextOf (runSteps j { busyIn 1 5 with turns := [] })).map (·.st) = some .busy) ∧
    (nextOf (runSteps 2 { busyIn 1 5 with turns := [] })).isSome = true := by decide

end Sys2Proof.Tests
end

section
/-! PROOFS. 10_state.md: the coupling of `STATE`, `PHASE`, `ERR` and `OUT_LEN` (R21, R24, R29, R74), kept by every step, and the
invariant at reset. -/

namespace Sys2Proof.Machine

/-! ## The coupling, value of `STATE` by value of `STATE` -/

theorem codesOk_iff_of_idle {s : State} (hst : s.st = .idle) :
    s.CodesOk ↔ s.phase = 0 ∧ s.err = 0 ∧ s.outLen = 0 := by
  simp +contextual [State.CodesOk, hst, iff_def]

theorem codesOk_iff_of_busy {s : State} (hst : s.st = .busy) :
    s.CodesOk ↔ s.phase ≠ 0 ∧ s.phase.toNat ≤ 11 ∧ s.err = 0 ∧ s.outLen = 0 := by
  simp +contextual [State.CodesOk, hst, iff_def]

theorem codesOk_iff_of_done {s : State} (hst : s.st = .done) : s.CodesOk ↔ s.phase = 0 ∧ s.err = 0 := by
  simp +contextual [State.CodesOk, hst, iff_def]

theorem codesOk_iff_of_error {s : State} (hst : s.st = .error) :
    s.CodesOk ↔ s.phase = 0 ∧ s.err ≠ 0 ∧ s.err.toNat ≤ 4 ∧ s.outLen = 0 := by
  simp +contextual [State.CodesOk, hst, iff_def]

/-- The coupling speaks of four registers alone. -/
theorem State.CodesOk.congr {s t : State} (hs : s.CodesOk) (hst : t.st = s.st) (hphase : t.phase = s.phase)
    (herr : t.err = s.err) (hlen : t.outLen = s.outLen) : t.CodesOk := by
  unfold State.CodesOk at hs ⊢
  rwa [hst, hphase, herr, hlen]

theorem codesOk_untaken {s : State} (hs : s.CodesOk) : (untaken s).CodesOk := hs.congr rfl rfl rfl rfl

/-! ## What the agents do to the four registers -/

/-- `STATE`, `PHASE`, `ERR` and `OUT_LEN` after a core operation: it stays BUSY in its phase or the next one, it rejects with the
code of its phase, or it is S.FINISH (R136, R156). -/
theorem core_operation_codes {s t : State} {i : Instr} (hi : decode s.params (coreFetch s) = .ok i) (h : exec i s = .next t) :
    (s.phase.toNat ≤ 10 ∧ (t.phase = s.phase ∨ t.phase.toNat = s.phase.toNat + 1)
        ∧ t.st = s.st ∧ t.err = s.err ∧ t.outLen = s.outLen)
    ∨ ((t.err = 1 ∧ s.phase = 1 ∨ t.err = 2 ∧ s.phase = 3 ∨ t.err = 3 ∧ s.phase = 4 ∨ t.err = 4 ∧ s.phase = 5)
        ∧ t.st = .error ∧ t.phase = 0 ∧ t.outLen = s.outLen)
    ∨ (s.phase = 11 ∧ t.st = .done ∧ t.phase = 0 ∧ t.err = s.err) := by
  rcases core_operation_cases hi h with ⟨hp, -, rfl⟩ | ⟨hp, -, rfl⟩ | ⟨hp, rfl⟩ | ⟨hp, -, rfl⟩ | ⟨hp, -, rfl⟩ |
    ⟨hp, -, rfl⟩ | ⟨hp, -, rfl⟩ | ⟨hp, -, rfl⟩ | ⟨hp, -, rfl⟩ | ⟨hp, rfl⟩ | ⟨hp, rfl⟩ | ⟨hp, rfl⟩ | ⟨hp, rfl⟩ |
    ⟨hp, -, -, rfl⟩ | ⟨hp, -, -, rfl⟩ | ⟨hp, -, -, rfl⟩ | ⟨hp, -, -, -, rfl⟩ | ⟨hp, -, -, -, rfl⟩ | ⟨hp, rfl⟩
  -- K.NEXTROW alone has two next phases (R108)
  on_goal 18 => split
  all_goals simp [hp]

/-- `STATE`, `PHASE`, `ERR` and `OUT_LEN` after a whole transaction: ERROR with one of the four codes, or DONE (R148, R157). -/
theorem class_codes {s t : State} (hb : s.st ≠ .busy) {p : Params} {n : Nat} {word : HeaderWord}
    (h : exec (decodeHeader p n word) s = .next t) :
    (t.st = .error ∧ t.phase = 0 ∧ t.err ≠ 0 ∧ t.err.toNat ≤ 4 ∧ t.outLen = 0)
    ∨ (t.st = .done ∧ t.phase = 0 ∧ t.err = 0) := by
  have performed : ∀ {u}, whenHostOwns s u = .next t → t = u := fun hu =>
    (Host.Outcome.next.inj ((whenHostOwns_of_not_busy _ hb).symm.trans hu)).symm
  rcases decodeHeader_cases p n word with ⟨-, e⟩ | ⟨-, u, w, hh, d, -, -, -, ⟨-, e⟩ | ⟨-, -, e⟩ | ⟨-, -, -, e⟩ |
    ⟨-, -, -, -, e⟩ | ⟨hw, hh0, -, -, e⟩⟩ <;> rw [e] at h
  iterate 5 · simp [performed h]
  · have hdone := Host.Outcome.next.inj ((execTConvert_eq hb u hw hh0).symm.trans h)
    simp [← hdone]

/-! ## Each kind of step keeps the coupling -/

theorem codesOk_begin (s : State) : s.begin.CodesOk := (codesOk_iff_of_busy rfl).mpr ⟨by simp, by simp, rfl, rfl⟩

theorem codesOk_toIdle (s : State) : s.toIdle.CodesOk := (codesOk_iff_of_idle rfl).mpr ⟨rfl, rfl, rfl⟩

theorem codesOk_resetBlock (s : State) : s.resetBlock.CodesOk := (codesOk_iff_of_idle rfl).mpr ⟨rfl, rfl, rfl⟩

theorem codesOk_putIn {s : State} (hs : s.CodesOk) (a : Nat) (v : Byte) : (s.putIn a v).CodesOk :=
  hs.congr (by simp) (by simp) (by simp) (by simp)

/-- A core operation of a BUSY block keeps the coupling: `ERR` and `OUT_LEN` are 0 before it. -/
theorem codesOk_core_operation {s t : State} {i : Instr} (hs : s.CodesOk) (hb : s.st = .busy)
    (hi : decode s.params (coreFetch s) = .ok i) (h : exec i s = .next t) : t.CodesOk := by
  obtain ⟨hphase, hmax, herr, hlen⟩ := (codesOk_iff_of_busy hb).mp hs
  rcases core_operation_codes hi h with ⟨hle, hnext, ht, he, hl⟩ | ⟨hcode, ht, hp, hl⟩ | ⟨-, ht, hp, he⟩
  · have hp : t.phase ≠ 0 ∧ t.phase.toNat ≤ 11 := by
      rcases hnext with hsame | hsucc
      · rw [hsame]; exact ⟨hphase, hmax⟩
      · exact ⟨fun h0 => by simp [h0] at hsucc, by omega⟩
    exact (codesOk_iff_of_busy (ht.trans hb)).mpr ⟨hp.1, hp.2, he.trans herr, hl.trans hlen⟩
  · refine (codesOk_iff_of_error ht).mpr ⟨hp, ?_, ?_, hl.trans hlen⟩ <;>
      rcases hcode with ⟨hc, -⟩ | ⟨hc, -⟩ | ⟨hc, -⟩ | ⟨hc, -⟩ <;> simp [hc]
  · exact (codesOk_iff_of_done ht).mpr ⟨hp, he.trans herr⟩

/-- A whole transaction establishes the coupling, whatever held before it: it begins with H.START. -/
theorem codesOk_class {s t : State} (hb : s.st ≠ .busy) {p : Params} {n : Nat} {word : HeaderWord}
    (h : exec (decodeHeader p n word) s = .next t) : t.CodesOk := by
  rcases class_codes hb h with ⟨ht, hregs⟩ | ⟨ht, hregs⟩
  · exact (codesOk_iff_of_error ht).mpr hregs
  · exact (codesOk_iff_of_done ht).mpr hregs

/-- Settles O47: by the kinds of step, the core's and the transaction's through what they do to the four registers. -/
theorem stepKeepsCodesCoupled : Obligations.StepKeepsCodesCoupled := by
  intro s t hs h
  have hu := codesOk_untaken hs
  rcases step_next_cases h with rfl | ⟨-, hb, i, hi, hexec⟩ | ⟨-, hb, hexec⟩ | ⟨-, rfl⟩ |
    ⟨-, ⟨a, v, -, rfl⟩ | ⟨n, rfl⟩ | ⟨rfl, -⟩ | rfl⟩ | ⟨v, n, -, rfl⟩
  · exact hu
  · exact codesOk_core_operation hu hb hi hexec
  · exact codesOk_class (s := untaken s) hb hexec
  · exact codesOk_resetBlock _
  · exact codesOk_putIn hu a v
  · exact hu.congr rfl rfl rfl rfl
  · exact codesOk_begin _
  · exact codesOk_toIdle _
  · exact hu.congr rfl rfl rfl rfl

/-! ## The invariant at reset -/

theorem codesOk_reset : State.reset.CodesOk := (codesOk_iff_of_idle rfl).mpr ⟨rfl, rfl, rfl⟩

theorem buffersOk_reset : State.reset.BuffersOk :=
  ⟨Memory.wf_nil, Memory.within_nil _, Memory.wf_nil, Memory.within_nil _⟩

theorem widthsOk_reset : State.reset.WidthsOk := ⟨Nat.two_pow_pos _, Nat.two_pow_pos _, Nat.two_pow_pos _⟩

/-- At reset the block is in the IDLE column of the table under R34; the other columns do not apply. -/
theorem resultOk_reset : State.reset.ResultOk where
  idle _ := ⟨rfl, rfl, rfl, rfl, rfl⟩
  error1 h := absurd h (by decide)
  error2 h := absurd h (by decide)
  error3 h := absurd h (by decide)
  error4 h := absurd h (by decide)
  done h := absurd h (by decide)

/-- Settles O49: part by part; no phase condition applies, because the block is not BUSY. -/
theorem invariantHoldsAtReset : Obligations.InvariantHoldsAtReset where
  buffers := buffersOk_reset
  widths := widthsOk_reset
  codes := codesOk_reset
  running h := absurd h (by decide)
  results := resultOk_reset

end Sys2Proof.Machine
end

section
/-! PROOFS. 20_memory.md: what a step does to the two buffers, that both stay canonical (R40), that the input is stable while BUSY
(R51, R57), and that a register write without effect changes nothing (R45). -/

namespace Sys2Proof.Machine

/-! ## What a step does to the input and to `OUT` -/

/-- `t` presents the input of `s`, its free bytes included, under the same parameters. -/
structure State.SameInput (s t : State) : Prop where
  inMem  : t.inMem = s.inMem
  inLen  : t.inLen = s.inLen
  params : t.params = s.params
  epoch  : t.epoch = s.epoch

/-- `OUT` of `t` is `OUT` of `s` with one block written at addresses that every `OUT` has (R44, D6). -/
def State.WritesOut (s t : State) : Prop :=
  ∃ a bytes, a + bytes.length ≤ 16384 ∧ t.outMem = s.outMem.writeBlock a bytes

theorem State.SameInput.of_untaken {s t : State} (h : (untaken s).SameInput t) : s.SameInput t :=
  ⟨h.inMem, h.inLen, h.params, h.epoch⟩

theorem State.SameInput.readIn_eq {s t : State} (h : s.SameInput t) (a : Nat) : readIn t a = readIn s a :=
  readIn_congr (by rw [h.inMem]) h.epoch

theorem State.SameInput.inByte_eq {s t : State} (h : s.SameInput t) (a : Nat) : inByte t a = inByte s a :=
  inByte_congr h.inLen h.inMem h.epoch a

/-- The byte that K.SHIFT, K.FLUSH or K.PAD emits goes to `OADDR`, which has 14 bits (R22). -/
theorem writesOut_of_emit {s t : State} (v : Byte) (h : t.outMem = s.outMem.write s.oaddr.toNat v) : s.WritesOut t :=
  ⟨s.oaddr.toNat, [v], s.oaddr.isLt, h⟩

/-- A core operation leaves the input alone (R57), and it leaves `OUT` alone or writes one block of it in a phase from FILEHDR to
PIX (R44). -/
theorem core_operation_buffers {s t : State} {i : Instr} (hi : decode s.params (coreFetch s) = .ok i)
    (h : exec i s = .next t) :
    s.SameInput t ∧ (t.outMem = s.outMem ∨ ((7 ≤ s.phase.toNat ∧ s.phase.toNat ≤ 10) ∧ s.WritesOut t)) := by
  rcases core_operation_cases hi h with ⟨-, -, rfl⟩ | ⟨-, -, rfl⟩ | ⟨-, rfl⟩ | ⟨-, -, rfl⟩ | ⟨-, -, rfl⟩ | ⟨-, -, rfl⟩ |
    ⟨-, -, rfl⟩ | ⟨-, -, rfl⟩ | ⟨-, -, rfl⟩ | ⟨-, rfl⟩ | ⟨hp, rfl⟩ | ⟨hp, rfl⟩ | ⟨hp, rfl⟩ | ⟨hp, -, -, rfl⟩ | ⟨-, -, -, rfl⟩ |
    ⟨hp, -, -, rfl⟩ | ⟨hp, -, -, -, rfl⟩ | ⟨-, -, -, -, rfl⟩ | ⟨-, rfl⟩ <;> refine ⟨by constructor <;> simp, ?_⟩
  -- stage P and K.GEOM
  iterate 10 · exact .inl (by simp)
  -- stage F
  · exact .inr ⟨by simp [hp], 0, fileHeader s.params s.fsize.toNat, by simp [fileHeader_length], by simp⟩
  · exact .inr ⟨by simp [hp], 14, infoHeader s.width.toNat s.height.toNat s.img.toNat, by simp [infoHeader_length], by simp⟩
  · exact .inr ⟨by simp [hp], 54, palette, by simp [palette_length], by simp⟩
  -- K.SHIFT, on the eighth bit and before it
  · exact .inr ⟨by simp [hp], writesOut_of_emit (shiftIn s.acc (invertBit (sourceBit s))) (by simp)⟩
  · exact .inl (by simp)
  -- K.FLUSH, K.PAD
  · exact .inr ⟨by simp [hp], writesOut_of_emit (s.acc <<< (8 - s.nacc.toNat)) (by simp)⟩
  · exact .inr ⟨by simp [hp], writesOut_of_emit 0 (by simp)⟩
  -- K.NEXTROW, S.FINISH
  · exact .inl (by simp)
  · exact .inl (by simp)

theorem encodeImage_length (p : Params) (w h : Nat) (body : List Byte) :
    (encodeImage p w h body).length = fileSize w h := by
  simp [encodeImage, header62_length, pixeldata_length, fileSize]

/-- A whole transaction leaves the input alone, and it leaves `OUT` alone or writes the encoded image at address 0. -/
theorem class_buffers {s t : State} (hb : s.st ≠ .busy) {p : Params} {n : Nat} {word : HeaderWord}
    (h : exec (decodeHeader p n word) s = .next t) : s.SameInput t ∧ (t.outMem = s.outMem ∨ s.WritesOut t) := by
  have performed : ∀ {u}, whenHostOwns s u = .next t → t = u := fun hu =>
    (Host.Outcome.next.inj ((whenHostOwns_of_not_busy _ hb).symm.trans hu)).symm
  rcases decodeHeader_cases p n word with ⟨-, e⟩ | ⟨-, u, w, hh, d, -, -, -, ⟨-, e⟩ | ⟨-, -, e⟩ | ⟨-, -, -, e⟩ |
    ⟨-, -, -, -, e⟩ | ⟨hw, hh0, -, -, e⟩⟩ <;> rw [e] at h
  iterate 5 · cases performed h; exact ⟨by constructor <;> simp, .inl (by simp)⟩
  · cases (execTConvert_eq hb u hw hh0).symm.trans h
    have hfit : 0 + (encodeImage s.params w.toNat hh.toNat s.begin.body).length ≤ 16384 := by
      have hsize := fileSize_le w hh
      rw [encodeImage_length]; omega
    exact ⟨by constructor <;> simp, .inr ⟨0, _, hfit, by simp⟩⟩

/-- What a step does to the input: nothing, unless it is reset or, when not BUSY, a host write of `IN` or of `IN_LEN` (R57, R173). -/
theorem step_input_cases {s t : State} (h : step s = .next t) :
    s.SameInput t ∨ s.turns.head? = some .reset
    ∨ (s.st ≠ .busy ∧ ((∃ a v, s.turns.head? = some (.inWrite a v) ∧ t = (untaken s).putIn a v)
        ∨ ∃ n, t = (untaken s).putLength n)) := by
  rcases step_next_cases h with rfl | ⟨-, -, i, hi, hexec⟩ | ⟨-, hb, hexec⟩ | ⟨hreset, -⟩ |
    ⟨hb, hwrite | hlen | ⟨rfl, -⟩ | rfl⟩ | ⟨v, n, -, rfl⟩
  · exact .inl ⟨rfl, rfl, rfl, rfl⟩
  · exact .inl (core_operation_buffers hi hexec).1.of_untaken
  · exact .inl (class_buffers (s := untaken s) hb hexec).1.of_untaken
  · exact .inr (.inl hreset)
  · exact .inr (.inr ⟨hb, .inl hwrite⟩)
  · exact .inr (.inr ⟨hb, .inr hlen⟩)
  · exact .inl ⟨rfl, rfl, rfl, rfl⟩
  · exact .inl ⟨rfl, rfl, rfl, rfl⟩
  · exact .inl ⟨rfl, rfl, rfl, rfl⟩

/-! ## The canonical form -/

/-- Buffers stay canonical where the input is kept and `OUT` is kept or written inside the addresses it has. -/
theorem State.BuffersOk.of_out {s t : State} (hs : s.BuffersOk) (hin : s.SameInput t)
    (hout : t.outMem = s.outMem ∨ s.WritesOut t) : t.BuffersOk := by
  obtain ⟨hinWf, hinBound, houtWf, houtBound⟩ := hs
  unfold State.BuffersOk
  rw [hin.inMem, hin.params]
  refine ⟨hinWf, hinBound, ?_⟩
  rcases hout with hkept | ⟨a, bytes, hfit, hwritten⟩
  · rw [hkept]
    exact ⟨houtWf, houtBound⟩
  · rw [hwritten]
    exact ⟨Memory.writeBlock_wf _ _ _ houtWf,
      Memory.writeBlock_within _ _ _ _ (hfit.trans (two_pow_14_le s.params)) houtBound⟩

theorem buffersOk_putIn {s : State} (hs : s.BuffersOk) (a : Nat) (v : Byte) : (s.putIn a v).BuffersOk := by
  obtain ⟨hinWf, hinBound, hout⟩ := hs
  unfold State.BuffersOk
  rw [putIn_params, putIn_outMem]
  exact ⟨putIn_wf s a v hinWf, putIn_within s a v hinBound, hout⟩

theorem buffersOk_resetBlock (s : State) : s.resetBlock.BuffersOk :=
  ⟨Memory.wf_nil, Memory.within_nil _, Memory.wf_nil, Memory.within_nil _⟩

/-- Settles O46: by the kinds of step; the core and a whole transaction write `OUT` only at addresses of 14 bits, a host write of
`IN` is dropped where there is no such address, reset empties both buffers, and every other step leaves them alone. -/
theorem stepKeepsBuffersCanonical : Obligations.StepKeepsBuffersCanonical := by
  intro s t hs h
  have hu : (untaken s).BuffersOk := hs
  rcases step_next_cases h with rfl | ⟨-, -, i, hi, hexec⟩ | ⟨-, hb, hexec⟩ | ⟨-, rfl⟩ |
    ⟨-, ⟨a, v, -, rfl⟩ | ⟨n, rfl⟩ | ⟨rfl, -⟩ | rfl⟩ | ⟨v, n, -, rfl⟩
  · exact hu
  · obtain ⟨hin, hout⟩ := core_operation_buffers hi hexec
    exact hu.of_out hin (hout.imp_right fun ⟨_, hwrites⟩ => hwrites)
  · obtain ⟨hin, hout⟩ := class_buffers (s := untaken s) hb hexec
    exact hu.of_out hin hout
  · exact buffersOk_resetBlock _
  · exact buffersOk_putIn hu a v
  · exact hu
  · exact hu
  · exact hu
  · exact hu

/-! ## Reads of the input -/

/-- A step of a BUSY block that is not reset keeps the input: the host's writes are ignored (R57). -/
theorem step_sameInput_of_busy {s t : State} (hb : s.st = .busy) (hreset : s.turns.head? ≠ some .reset)
    (h : step s = .next t) : s.SameInput t := by
  rcases step_input_cases h with hsame | hr | ⟨hidle, -⟩
  · exact hsame
  · exact absurd hr hreset
  · exact absurd hb hidle

/-- The turn of a host read of `IN` leaves the byte in `rdata` and changes nothing else (R40, R51). -/
theorem step_inRead (s : State) (ts : List Turn) {a : Nat} (ha : a < 2 ^ s.params.inAddrBits) :
    step { s with turns := .inRead a :: ts } = .next { s with turns := ts, rdata := (readIn s a).toNat } := by
  rcases hostReadBack_eq a { s with turns := ts } with ⟨-, hread⟩ | ⟨hle, -⟩
  · exact congrArg Host.Outcome.next hread
  · exact absurd ha (Nat.not_lt.mpr hle)

/-- Only reset and a host write at the address change what a read of it returns (R51). -/
theorem step_readIn {s t : State} {a : Nat} (h : step s = .next t) (hreset : s.turns.head? ≠ some .reset)
    (hwrite : ∀ v, s.turns.head? ≠ some (.inWrite a v)) : readIn t a = readIn s a := by
  rcases step_input_cases h with hsame | hr | ⟨-, ⟨b, v, hb, rfl⟩ | ⟨n, rfl⟩⟩
  · exact hsame.readIn_eq a
  · exact absurd hr hreset
  · have hne : a ≠ b := by
      rintro rfl
      exact hwrite v hb
    have hread : ((untaken s).putIn b v).inMem.read a = s.inMem.read a := by
      rw [putIn_read, if_neg fun hab => hne hab.1]; rfl
    exact readIn_congr hread (putIn_epoch _ _ _)
  · rfl

/-- Settles O52: no step of a BUSY block but reset writes the input, and a read of it depends on the buffer and the number of
resets alone. -/
theorem inputIsStableWhileBusy : Obligations.InputIsStableWhileBusy := by
  refine ⟨fun s t hb hreset h => ?_, fun s ts a ha => ⟨step_inRead s ts ha, fun b => readIn_written⟩,
    fun s t a h => step_readIn h⟩
  have hsame := step_sameInput_of_busy hb hreset h
  exact ⟨hsame.inMem, hsame.inLen, hsame.params, hsame.inByte_eq⟩

/-! ## Register writes without effect -/

/-- Settles O11: the decoder answers only CTRL commands and H.WRLEN to a register write, and H.WRLEN is ignored while BUSY. -/
theorem otherRegisterWritesAreIgnored : Obligations.OtherRegisterWritesAreIgnored := by
  intro s ts r d hctrl hlen
  change runFetch (.regwr r d) { s with turns := ts } = _
  rcases runFetch_cases (.regwr r d) (fun _ _ h => by cases h) { s with turns := ts } with ⟨i, hi, hrun⟩ | ⟨_, _, hrun⟩
  · rw [hrun]
    rcases decodeRegWrite_ok (fits_ok hi).2 with ⟨h0, -⟩ | ⟨h0, -⟩ | ⟨h3, rfl⟩
    · exact absurd h0 hctrl
    · exact absurd h0 hctrl
    · have hb : s.st = .busy := hlen.resolve_left (not_not.mpr h3)
      exact whenHostOwns_of_busy (s := { s with turns := ts }) _ hb
  · exact hrun

end Sys2Proof.Machine
end

section
/-! PROOFS. 30_encoding.md: the decoder undoes the encoder (R61, R69, R71, R72), the selections it makes, the padding of a pixel
row (section 4), and the pseudo-command LOAD (section 9). -/

namespace Sys2Proof.Machine

/-! ## The header word and the class it selects (R72) -/

theorem headerWordOf_toNat (u w h d : Byte) :
    (headerWordOf u w h d).toNat = u.toNat * 2 ^ 24 + w.toNat * 2 ^ 16 + h.toNat * 2 ^ 8 + d.toNat := by
  simp only [headerWordOf, BitVec.toNat_append, ← Nat.shiftLeft_add_eq_or_of_lt w.isLt,
    ← Nat.shiftLeft_add_eq_or_of_lt h.isLt, ← Nat.shiftLeft_add_eq_or_of_lt d.isLt]
  simp only [Nat.shiftLeft_eq]
  omega

/-- A word is put together from the four bytes whose weighted sum it is (R72). -/
theorem eq_headerWordOf {word : HeaderWord} {u w h d : Byte}
    (hword : word.toNat = u.toNat * 2 ^ 24 + w.toNat * 2 ^ 16 + h.toNat * 2 ^ 8 + d.toNat) : word = headerWordOf u w h d :=
  BitVec.eq_of_toNat_eq (hword.trans (headerWordOf_toNat u w h d).symm)

theorem decodeHeader_of_le {p : Params} {n : Nat} (word : HeaderWord) (hn : n ≤ p.tooSmallMax.toNat) :
    decodeHeader p n word = .tTooSmall := if_pos hn

section
variable {p : Params} {n : Nat} {w h d : Byte} (hn : p.tooSmallMax.toNat < n) (u : Byte)
include hn

/-- Past the length check, the class is chosen by the bytes the word was put together from. -/
theorem decodeHeader_headerWordOf (w h d : Byte) :
    decodeHeader p n (headerWordOf u w h d) =
      if w = 0 then .tBaddimW0 u h d
      else if h = 0 then .tBaddimH0 u w d
      else if n - 4 < packedByteCount w.toNat h.toNat then .tShort u w h d
      else if d ≠ 1 then .tBaddepth u w h d
      else .tConvert u w h := by
  obtain ⟨hu, hw, hh, hd⟩ := headerByte_headerWordOf u w h d
  simp only [decodeHeader, hu, hw, hh, hd, if_neg (Nat.not_le.mpr hn)]

theorem decodeHeader_width_zero (h d : Byte) : decodeHeader p n (headerWordOf u 0 h d) = .tBaddimW0 u h d := by
  rw [decodeHeader_headerWordOf hn, if_pos rfl]

theorem decodeHeader_height_zero (hw : w ≠ 0) (d : Byte) :
    decodeHeader p n (headerWordOf u w 0 d) = .tBaddimH0 u w d := by
  rw [decodeHeader_headerWordOf hn, if_neg hw, if_pos rfl]

theorem decodeHeader_short (hw : w ≠ 0) (hh : h ≠ 0) (d : Byte) (hs : n - 4 < packedByteCount w.toNat h.toNat) :
    decodeHeader p n (headerWordOf u w h d) = .tShort u w h d := by
  rw [decodeHeader_headerWordOf hn, if_neg hw, if_neg hh, if_pos hs]

theorem decodeHeader_bad_depth (hw : w ≠ 0) (hh : h ≠ 0) (hl : packedByteCount w.toNat h.toNat ≤ n - 4) (hd : d ≠ 1) :
    decodeHeader p n (headerWordOf u w h d) = .tBaddepth u w h d := by
  rw [decodeHeader_headerWordOf hn, if_neg hw, if_neg hh, if_neg (Nat.not_lt.mpr hl), if_pos hd]

theorem decodeHeader_accepted (hw : w ≠ 0) (hh : h ≠ 0) (hl : packedByteCount w.toNat h.toNat ≤ n - 4) :
    decodeHeader p n (headerWordOf u w h 1) = .tConvert u w h := by
  rw [decodeHeader_headerWordOf hn, if_neg hw, if_neg hh, if_neg (Nat.not_lt.mpr hl), if_neg (not_not.mpr rfl)]

end

/-- Settles O4: the word is the one put together from the four bytes, `e` is the body length they demand, and each class then
has its equation. -/
theorem headerClassIsTheFirstMatch : Obligations.HeaderClassIsTheFirstMatch := by
  intro p n word u w h d e hword he
  obtain rfl := eq_headerWordOf hword
  obtain rfl := isCeilDiv_unique (packedByteCount_isCeilDiv w.toNat h.toNat) he
  refine ⟨fun hn => ?_, fun hn hw => ?_, fun hn hw hh => ?_, fun hn hw hh hs => ?_, fun hn hw hh hl hd => ?_,
    fun hn hw hh hl hd => ?_⟩ <;> refine congrArg Except.ok ?_
  · exact decodeHeader_of_le _ hn
  · subst hw; exact decodeHeader_width_zero hn u h d
  · subst hh; exact decodeHeader_height_zero hn u hw d
  · exact decodeHeader_short hn u hw hh d hs
  · exact decodeHeader_bad_depth hn u hw hh hl hd
  · subst hd; exact decodeHeader_accepted hn u hw hh hl

/-! ## The operation a phase code selects (R71) -/

theorem decodePix_shift {c : LoopCounters} (hx : c.x.toNat < c.width.toNat) : decodePix c = .kShift := if_pos hx

section
variable {c : LoopCounters} (hx : c.width.toNat ≤ c.x.toNat)
include hx

/-- At the end of a row's pixels the other three operations are chosen. -/
theorem decodePix_row_end :
    decodePix c = if c.nacc ≠ 0 then .kFlush else if c.kb.toNat < c.pbpr.toNat then .kPad else .kNextrow :=
  if_neg (Nat.not_lt.mpr hx)

theorem decodePix_flush (hn : c.nacc ≠ 0) : decodePix c = .kFlush := by
  rw [decodePix_row_end hx, if_pos hn]

theorem decodePix_pad (hn : c.nacc = 0) (hk : c.kb.toNat < c.pbpr.toNat) : decodePix c = .kPad := by
  rw [decodePix_row_end hx, if_neg (not_not.mpr hn), if_pos hk]

theorem decodePix_nextrow (hn : c.nacc = 0) (hk : c.pbpr.toNat ≤ c.kb.toNat) : decodePix c = .kNextrow := by
  rw [decodePix_row_end hx, if_neg (not_not.mpr hn), if_neg (Nat.not_lt.mpr hk)]

end

/-- The codes 12 to 15 are reserved. -/
theorem decodePhase_reserved {code : BitVec 4} (c : LoopCounters) (h : 12 ≤ code.toNat) :
    decodePhase code c = .error (.reservedPhase code) := by
  have hcode : code.toNat = 12 ∨ code.toNat = 13 ∨ code.toNat = 14 ∨ code.toNat = 15 := by
    have := code.isLt; omega
  rcases hcode with hcode | hcode | hcode | hcode <;> simp [decodePhase, hcode]

/-- Settles O5: every code but 10 is a fixed line of the decoder, and phase 10 is `decodePix`. -/
theorem phaseCodeSelectsOperation : Obligations.PhaseCodeSelectsOperation := by
  intro p c
  refine ⟨rfl, rfl, rfl, rfl, rfl, rfl, rfl, rfl, rfl, rfl, fun hx => ?_, fun hx hn => ?_, fun hx hn hk => ?_,
    fun hx hn hk => ?_, rfl, fun code hcode => decodePhase_reserved c hcode⟩ <;> refine congrArg Except.ok ?_
  · exact decodePix_shift hx
  · exact decodePix_flush hx hn
  · exact decodePix_pad hx hn hk
  · exact decodePix_nextrow hx hn hk

/-! ## The command a word written to `CTRL` selects (R69) -/

theorem decodeCtrl_of_odd {d : Nat} (h : d % 2 = 1) : decodeCtrl d = .ok .hStart := by
  simp [decodeCtrl, h]

theorem decodeCtrl_of_mod_four_eq_two {d : Nat} (h : d % 4 = 2) : decodeCtrl d = .ok .hClear := by
  have h0 : d % 2 = 0 := by omega
  have h1 : d / 2 % 2 = 1 := by omega
  simp [decodeCtrl, Nat.testBit_succ, h0, h1]

theorem decodeCtrl_of_mod_four_eq_zero {d : Nat} (h : d % 4 = 0) : decodeCtrl d = .error .noCommand := by
  have h0 : d % 2 = 0 := by omega
  have h1 : d / 2 % 2 = 0 := by omega
  simp [decodeCtrl, Nat.testBit_succ, h0, h1]

/-- A word that a register access carries, written to register 0, is read as a command word. -/
theorem decode_ctrl_write {p : Params} {d : Nat} (h : d < 2 ^ p.dataBits) : decode p (.regwr 0 d) = decodeCtrl d :=
  fits_of_lt _ h

/-- A length that fits `IN_LEN` fits the data word, and is written as it is (R25, R142). -/
theorem decode_length_write {p : Params} {n : Nat} (h : n < 2 ^ p.lenBits) : decode p (.regwr 3 n) = .ok (.hWrlen n) := by
  have hfits : n < 2 ^ p.dataBits := h.trans_le (Nat.pow_le_pow_right (by decide) (lenBits_le_dataBits p))
  calc decode p (.regwr 3 n) = .ok (.hWrlen (n % 2 ^ p.lenBits)) := fits_of_lt _ hfits
    _ = .ok (.hWrlen n) := by rw [Nat.mod_eq_of_lt h]

theorem runFetch_of_ok {f : Fetch} (s : State) {i : Instr} (h : decode s.params f = .ok i) : runFetch f s = exec i s := by
  simp only [runFetch, h]

theorem runFetch_of_error {f : Fetch} (s : State) {e : DecodeError} (h : decode s.params f = .error e) :
    runFetch f s = onDecodeError e s := by
  simp only [runFetch, h]

/-- Settles O6: the turn runs what the command word decodes to. -/
theorem controlWordSelectsCommand : Obligations.ControlWordSelectsCommand := by
  intro s ts d hd
  have hdecode : decode s.params (.regwr 0 d) = decodeCtrl d := decode_ctrl_write hd
  refine ⟨fun h => ?_, fun h => ?_, fun h => ?_⟩
  · exact runFetch_of_ok { s with turns := ts } (hdecode.trans (decodeCtrl_of_odd h))
  · exact runFetch_of_ok { s with turns := ts } (hdecode.trans (decodeCtrl_of_mod_four_eq_two h))
  · exact runFetch_of_error { s with turns := ts } (hdecode.trans (decodeCtrl_of_mod_four_eq_zero h))

/-! ## Decoding and encoding -/

/-- Settles O3: the words are closed terms, on which the decoder computes. -/
theorem specPatternsDecode : Obligations.SpecPatternsDecode := by
  unfold Obligations.SpecPatternsDecode
  decide

/-- The greater of the two admissible thresholds (R2). -/
theorem tooSmallMax_le_four (p : TooSmallMax) : p.toNat ≤ 4 := by cases p <;> decide

/-- Settles O1: by the instruction. A class row's length meets its row's condition, an operand fits its width because the
instruction is well formed, and the rest is the decoder on a fixed code. -/
theorem decodeInvertsEncode : Obligations.DecodeInvertsEncode := by
  intro p i hwf hbit
  have hmax : p.tooSmallMax.toNat < 8133 := (tooSmallMax_le_four p.tooSmallMax).trans_lt (by decide)
  have hword := two_pow_32_le p
  cases i with
  | tTooSmall => exact congrArg Except.ok (decodeHeader_of_le _ (Nat.zero_le _))
  | tBaddimW0 u h d => exact congrArg Except.ok (decodeHeader_width_zero hmax u h d)
  | tBaddimH0 u w d =>
    have hw : w ≠ 0 := by simpa [Instr.wellFormed] using hwf
    exact congrArg Except.ok (decodeHeader_height_zero hmax u hw d)
  | tShort u w h d =>
    obtain ⟨⟨hw, hh⟩, hs⟩ : (w ≠ 0 ∧ h ≠ 0) ∧ p.tooSmallMax.toNat + 1 - 4 < packedByteCount w.toNat h.toNat := by
      simpa [Instr.wellFormed] using hwf
    exact congrArg Except.ok (decodeHeader_short (Nat.lt_succ_self _) u hw hh d hs)
  | tBaddepth u w h d =>
    obtain ⟨⟨hw, hh⟩, hd⟩ : (w ≠ 0 ∧ h ≠ 0) ∧ d ≠ 1 := by simpa [Instr.wellFormed] using hwf
    exact congrArg Except.ok (decodeHeader_bad_depth hmax u hw hh (packedByteCount_le w h) hd)
  | tConvert u w h =>
    obtain ⟨hw, hh⟩ : w ≠ 0 ∧ h ≠ 0 := by simpa [Instr.wellFormed] using hwf
    exact congrArg Except.ok (decodeHeader_accepted hmax u hw hh (packedByteCount_le w h))
  | uBit => exact absurd rfl hbit
  | hWrin a v => exact fits_of_lt _ (of_decide_eq_true hwf)
  | hWrlen n => exact decode_length_write (of_decide_eq_true hwf)
  | hStart => exact decode_ctrl_write (Nat.lt_of_lt_of_le (by decide) hword)
  | hClear => exact decode_ctrl_write (Nat.lt_of_lt_of_le (by decide) hword)
  | hRdout a => exact fits_of_lt _ (of_decide_eq_true hwf)
  | pChklen | pLatch | pChkdim | pChkdata | pChkdepth | kGeom | fFilehdr | fInfohdr | fPalette | kShift | kFlush | kPad
  | kNextrow | sFinish | hRdreg => rfl

/-! ## The padding of a pixel row (R68, R102) -/

/-- Byte `k` of row `y` of the output stands after the 62 header bytes and the rows above it (R120, R103). -/
theorem encodeImage_getElem?_row (p : Params) {w h y k : Nat} (body : List Byte) (hy : y < h) (hk : k < paddedBytesPerRow w) :
    (encodeImage p w h body)[62 + paddedBytesPerRow w * y + k]? = some (rowbyte body w y k) := by
  have hheader := header62_length p w h
  rw [encodeImage, List.getElem?_append_right (by omega), hheader, Nat.add_assoc, Nat.add_sub_cancel_left]
  exact pixeldata_getElem? body w y k hk h hy

/-- A row bit at or beyond the width is 0 (R102). -/
theorem rowbit_of_width_le (body : List Byte) {w k j : Nat} (y : Nat) (h : w ≤ 8 * k + j) : rowbit body w y k j = false := by
  simp [rowbit, Nat.not_lt.mpr h]

/-- Settles O44: a padding byte is 0, and in a data byte the bit is a row bit beyond the width. -/
theorem rowPaddingIsZero : Obligations.RowPaddingIsZero := by
  intro p w h body y k j hy hk hj hbeyond
  refine ⟨_, encodeImage_getElem?_row p body hy hk, ?_⟩
  rw [rowbyte_getLsbD _ _ _ _ _ (by omega)]
  by_cases hpad : bytesPerRow w ≤ k
  · rw [if_pos hpad]
  · rw [if_neg hpad, rowbit_of_width_le _ _ (by omega)]

/-! ## The pseudo-command LOAD (R77) -/

/-- Storing a byte and then the bytes after it, each where there is such an address, is one block write of those that have one
(R44, R141). -/
theorem putIn_inMem_writeBlock (s : State) (a : Nat) (b : Byte) (bs : List Byte) :
    (s.putIn a b).inMem.writeBlock (a + 1) (bs.take (2 ^ s.params.inAddrBits - (a + 1)))
      = s.inMem.writeBlock a ((b :: bs).take (2 ^ s.params.inAddrBits - a)) := by
  by_cases ha : a < 2 ^ s.params.inAddrBits
  · have hroom : 2 ^ s.params.inAddrBits - a = (2 ^ s.params.inAddrBits - (a + 1)) + 1 := by omega
    rw [hroom, List.take_succ_cons, State.putIn, if_pos ha]
    rfl
  · have hnext : 2 ^ s.params.inAddrBits - (a + 1) = 0 := by omega
    have hhere : 2 ^ s.params.inAddrBits - a = 0 := by omega
    rw [hnext, hhere, State.putIn, if_neg ha]
    rfl

/-- A host write of `IN` by a host that owns the block: stored, or passed over where there is no such address (R141). -/
theorem step_inWrite {s : State} (hb : s.st ≠ .busy) (a : Nat) (v : Byte) (ts : List Turn) :
    step { s with turns := .inWrite a v :: ts } = .next { s with inMem := (s.putIn a v).inMem, turns := ts } := by
  by_cases ha : a < 2 ^ s.params.inAddrBits
  · have hi : decode s.params (.inwr a v) = .ok (.hWrin a v) := fits_of_lt _ ha
    calc step { s with turns := .inWrite a v :: ts }
        = exec (.hWrin a v) { s with turns := ts } := runFetch_of_ok { s with turns := ts } hi
      _ = .next (({ s with turns := ts } : State).putIn a v) := whenHostOwns_of_not_busy (s := { s with turns := ts }) _ hb
      _ = .next { s with inMem := (s.putIn a v).inMem, turns := ts } := by simp only [State.putIn, if_pos ha]
  · have he : decode s.params (.inwr a v) = .error (.notExpressible a) := fits_of_le _ (Nat.le_of_not_lt ha)
    calc step { s with turns := .inWrite a v :: ts }
        = .next { s with turns := ts } := runFetch_of_error { s with turns := ts } he
      _ = .next { s with inMem := (s.putIn a v).inMem, turns := ts } := by simp only [State.putIn, if_neg ha]

/-- A write of `IN_LEN` by a host that owns the block (R142). -/
theorem step_lengthTurn {s : State} (hb : s.st ≠ .busy) {n : Nat} (hn : n < 2 ^ s.params.lenBits) (ts : List Turn) :
    step { s with turns := lengthTurn n :: ts } = .next { s with inLen := n, turns := ts } := by
  have hlen : ({ s with turns := ts } : State).putLength n = { s with inLen := n, turns := ts } := by
    simp only [State.putLength, Nat.mod_eq_of_lt hn]
  calc step { s with turns := lengthTurn n :: ts }
      = exec (.hWrlen n) { s with turns := ts } := runFetch_of_ok { s with turns := ts } (decode_length_write hn)
    _ = .next (({ s with turns := ts } : State).putLength n) := whenHostOwns_of_not_busy (s := { s with turns := ts }) _ hb
    _ = .next { s with inLen := n, turns := ts } := congrArg _ hlen

theorem runSteps_succ {s t : State} (h : step s = .next t) (k : Nat) : runSteps (k + 1) s = runSteps k t := by
  simp only [runSteps, h]

/-- The writes of a script store the bytes that have an address as one block, and pass the others over (R77, D33). -/
theorem runSteps_writeScript {s : State} (hb : s.st ≠ .busy) (a k : Nat) (bs : List Byte) (ts : List Turn) :
    runSteps (bs.length + k) { s with turns := writeScript a bs ++ ts }
      = runSteps k { s with
          inMem := s.inMem.writeBlock a (bs.take (2 ^ s.params.inAddrBits - a)), turns := ts } := by
  induction bs generalizing s a with
  | nil => simp [writeScript, Memory.writeBlock]
  | cons b bs ih =>
    have hlen : (b :: bs).length + k = (bs.length + k) + 1 := by simp only [List.length_cons]; omega
    rw [hlen, writeScript, List.cons_append, runSteps_succ (step_inWrite hb a b _), ← putIn_inMem_writeBlock]
    exact ih (s := { s with inMem := (s.putIn a b).inMem }) hb (a + 1)

/-- LOAD is one block write from address 0, and its last turn sets `IN_LEN` (R77). -/
theorem runSteps_loadScript {s : State} (hb : s.st ≠ .busy) {bytes : List Byte} (hlen : bytes.length < 2 ^ s.params.lenBits) :
    runSteps (bytes.length + 1) { s with turns := loadScript bytes } = .next { s with
      inMem := s.inMem.writeBlock 0 (bytes.take (2 ^ s.params.inAddrBits)), inLen := bytes.length, turns := [] } := by
  rw [loadScript, runSteps_writeScript hb]
  exact runSteps_succ
    (step_lengthTurn (s := { s with inMem := s.inMem.writeBlock 0 (bytes.take (2 ^ s.params.inAddrBits)) }) hb hlen []) 0

/-- Settles O54: what a block write of the bytes that have an address leaves at each address. -/
theorem loadPresentsTheInput : Obligations.LoadPresentsTheInput := by
  intro s bytes hb hlen
  refine ⟨_, runSteps_loadScript hb hlen, rfl, fun i hi hfits => ?_, fun i hi => ?_, rfl⟩
  · have hstored : i < (bytes.take (2 ^ s.params.inAddrBits)).length := by rw [List.length_take]; omega
    have hread := Memory.read_writeBlock_inside s.inMem 0 i _ hstored
    rw [Nat.zero_add] at hread
    rw [hread, List.getElem_take, List.getElem?_eq_getElem hi]
  · exact Memory.read_writeBlock_outside _ _ _ _ (.inr (by rw [List.length_take]; omega))

end Sys2Proof.Machine
end

section
/-! PROOFS. 40_header_parser.md: the operations of stage P (R81 to R85), the order of `parse`'s checks (R80), what an accepted input
does not use (R88), and that the outcome depends on the input and the parameters alone (R87). -/

namespace Sys2Proof.Machine

/-! ## The four checks and the latch (R81 to R85) -/

theorem isTooSmall_iff (s : State) : isTooSmall s = true ↔ s.inLen ≤ s.params.tooSmallMax.toNat := decide_eq_true_iff

theorem hasBadDimension_iff (s : State) : hasBadDimension s = true ↔ s.width.toNat = 0 ∨ s.height.toNat = 0 := by
  simp [hasBadDimension, BitVec.toNat_eq]

theorem isShort_iff (s : State) :
    isShort s = true ↔ s.inLen - 4 < packedByteCount s.width.toNat s.height.toNat := decide_eq_true_iff

theorem hasBadDepth_iff (s : State) : hasBadDepth s = true ↔ s.depth.toNat ≠ 1 := by
  simp [hasBadDepth, BitVec.toNat_eq]

/-- Settles O14: each check is one branch on its condition. -/
theorem headerChecks : Obligations.HeaderChecks := by
  intro s
  refine ⟨fun h => ?_, fun h => ?_, fun h => ?_, fun hw hh => ?_, fun h => ?_, fun h => ?_⟩ <;>
    refine congrArg Host.Outcome.next ?_
  · exact if_pos ((isTooSmall_iff s).mpr h)
  · exact if_neg (mt (isTooSmall_iff s).mp (Nat.not_le.mpr h))
  · exact if_pos ((hasBadDimension_iff s).mpr h)
  · exact if_neg (mt (hasBadDimension_iff s).mp (not_or.mpr ⟨hw, hh⟩))
  · exact if_pos ((hasBadDepth_iff s).mpr h)
  · exact if_neg (mt (hasBadDepth_iff s).mp (not_not.mpr h))

/-- P.LATCH as one record update (R82). -/
theorem exec_pLatch (s : State) :
    exec .pLatch s = .next { s with width := inByte s 1, height := inByte s 2, depth := inByte s 3, phase := 3 } := rfl

/-- Settles O15: the three bytes are what the core reads at addresses 1, 2 and 3. -/
theorem headerLatch : Obligations.HeaderLatch := by
  refine fun s => ⟨fun b1 b2 b3 hlen h1 h2 h3 => ?_, _, _, _, exec_pLatch s⟩
  rw [exec_pLatch, inByte_written (by omega) h1, inByte_written (by omega) h2, inByte_written (by omega) h3]

theorem exec_pChkdata_of_short {s : State} (h : s.inLen - 4 < packedByteCount s.width.toNat s.height.toNat) :
    exec .pChkdata s = .next ((latchCounts s).reject 3) :=
  congrArg Host.Outcome.next (if_pos ((isShort_iff s).mpr h))

theorem exec_pChkdata_of_enough {s : State} (h : packedByteCount s.width.toNat s.height.toNat ≤ s.inLen - 4) :
    exec .pChkdata s = .next ((latchCounts s).setPhase 5) :=
  congrArg Host.Outcome.next (if_neg (mt (isShort_iff s).mp (Nat.not_lt.mpr h)))

/-- Settles O16: `e` is the body length the header demands, which fits `EXPECTED`; then by the outcome of the check. -/
theorem bodyLengthCheck : Obligations.BodyLengthCheck := by
  intro s e _ he
  obtain rfl := isCeilDiv_unique (packedByteCount_isCeilDiv s.width.toNat s.height.toNat) he
  rcases Nat.lt_or_ge (s.inLen - 4) (packedByteCount s.width.toNat s.height.toNat) with hshort | henough
  · exact ⟨_, exec_pChkdata_of_short hshort, latchCounts_expected_toNat s, rfl, fun _ => rfl,
      fun henough => absurd hshort (Nat.not_lt.mpr henough)⟩
  · exact ⟨_, exec_pChkdata_of_enough henough, latchCounts_expected_toNat s, rfl,
      fun hshort => absurd hshort (Nat.not_lt.mpr henough), fun _ => rfl⟩

/-! ## `parse` and `convert`, check by check (R80, R126) -/

theorem parse_of_length_le {p : Params} {buf : List Byte} (hn : buf.length ≤ p.tooSmallMax.toNat) :
    parse p buf = .error .tooSmall := if_pos hn

section
variable {p : Params} {w h d : Byte} {body : List Byte} (hn : p.tooSmallMax.toNat < body.length + 4) (u : Byte)
include hn

/-- Past the length check, the header bytes and the length of the body decide; byte 0 does not appear. -/
theorem parse_header (w h d : Byte) :
    parse p (u :: w :: h :: d :: body) =
      if w = 0 ∨ h = 0 then .error .invalidDimensions
      else if body.length < packedByteCount w.toNat h.toNat then
        .error (.insufficientBitmapData (packedByteCount w.toNat h.toNat) body.length)
      else if d ≠ 1 then .error .unsupportedColorDepth
      else .ok { width := w.toNat, height := h.toNat, colorDepth := d.toNat, body := body } :=
  if_neg (Nat.not_le.mpr hn)

theorem parse_bad_dimension (hwh : w = 0 ∨ h = 0) (d : Byte) :
    parse p (u :: w :: h :: d :: body) = .error .invalidDimensions := by
  rw [parse_header hn, if_pos hwh]

theorem parse_short (hw : w ≠ 0) (hh : h ≠ 0) (d : Byte) (hs : body.length < packedByteCount w.toNat h.toNat) :
    parse p (u :: w :: h :: d :: body)
      = .error (.insufficientBitmapData (packedByteCount w.toNat h.toNat) body.length) := by
  rw [parse_header hn, if_neg (not_or.mpr ⟨hw, hh⟩), if_pos hs]

theorem parse_bad_depth (hw : w ≠ 0) (hh : h ≠ 0) (hl : packedByteCount w.toNat h.toNat ≤ body.length) (hd : d ≠ 1) :
    parse p (u :: w :: h :: d :: body) = .error .unsupportedColorDepth := by
  rw [parse_header hn, if_neg (not_or.mpr ⟨hw, hh⟩), if_neg (Nat.not_lt.mpr hl), if_pos hd]

theorem parse_accepted (hw : w ≠ 0) (hh : h ≠ 0) (hl : packedByteCount w.toNat h.toNat ≤ body.length) :
    parse p (u :: w :: h :: 1 :: body) = .ok { width := w.toNat, height := h.toNat, colorDepth := 1, body := body } := by
  rw [parse_header hn, if_neg (not_or.mpr ⟨hw, hh⟩), if_neg (Nat.not_lt.mpr hl), if_neg (not_not.mpr rfl)]
  rfl

end

/-- Settles O41: `e` is the body length the header demands, and each outcome has its equation. -/
theorem parseChecksInOrder : Obligations.ParseChecksInOrder := by
  intro p u w h d body e he
  obtain rfl := isCeilDiv_unique (packedByteCount_isCeilDiv w.toNat h.toNat) he
  refine ⟨fun buf => parse_of_length_le, fun hn => ⟨fun hwh => ?_, fun hw hh hs => ?_, fun hw hh hl hd => ?_,
    fun hw hh hl hd => ?_⟩⟩
  · exact parse_bad_dimension hn u hwh d
  · exact parse_short hn u hw hh d hs
  · exact parse_bad_depth hn u hw hh hl hd
  · subst hd; exact parse_accepted hn u hw hh hl

/-- What it takes for an input with a whole header to be accepted (R86). -/
structure Accepts (p : Params) (w h d : Byte) (bodyLength : Nat) : Prop where
  longEnough : p.tooSmallMax.toNat < bodyLength + 4
  width      : w ≠ 0
  height     : h ≠ 0
  enough     : packedByteCount w.toNat h.toNat ≤ bodyLength
  depth      : d = 1

/-- An input with a whole header is accepted by the header and the length of its body, and its output is the encoded image (R126). -/
theorem convert_eq_ok_iff {p : Params} {u w h d : Byte} {body out : List Byte} :
    convert p (u :: w :: h :: d :: body) = .ok out
      ↔ Accepts p w h d body.length ∧ encodeImage p w.toNat h.toNat body = out := by
  constructor
  · intro hout
    rcases Nat.lt_or_ge p.tooSmallMax.toNat (body.length + 4) with hn | hn
    · rw [convert, parse_header hn] at hout
      split_ifs at hout with hwh hs hd
      obtain ⟨hw, hh⟩ := not_or.mp hwh
      exact ⟨⟨hn, hw, hh, Nat.le_of_not_lt hs, not_not.mp hd⟩, Except.ok.inj hout⟩
    · rw [convert, parse_of_length_le (buf := u :: w :: h :: d :: body) hn] at hout
      cases hout
  · rintro ⟨⟨hn, hw, hh, hl, rfl⟩, rfl⟩
    rw [convert, parse_accepted hn u hw hh hl]

/-! ## The bits of the body that the output depends on (R94) -/

theorem srcbit_congr {body other : List Byte} {i : Nat} (h : other[i >>> 3]? = body[i >>> 3]?) :
    srcbit other i = srcbit body i := by
  rw [srcbit, srcbit, h]

/-- A source bit of a pixel lies in the first `packedByteCount` bytes of the body. -/
theorem shiftRight_three_lt_packedByteCount {w h i : Nat} (hi : i < w * h) : i >>> 3 < packedByteCount w h := by
  have := packedByteCount_mul_le w h
  rw [Nat.shiftRight_eq_div_pow]; omega

/-- The index of a pixel of the image is below `width*height`. -/
theorem pixel_index_lt {w h y x : Nat} (hy : y < h) (hx : x < w) : y * w + x < w * h :=
  calc y * w + x < (y + 1) * w := by rw [Nat.succ_mul]; omega
    _ ≤ h * w := Nat.mul_le_mul_right w hy
    _ = w * h := Nat.mul_comm h w

section
variable {w h : Nat} {body other : List Byte} (hbits : ∀ i, i < w * h → srcbit other i = srcbit body i)
include hbits

/-- A row byte depends on the source bits of its pixels alone: beyond the width its bits are 0 (R102). -/
theorem rowbyte_congr {y : Nat} (hy : y < h) (k : Nat) : rowbyte other w y k = rowbyte body w y k := by
  have hrow : rowbit other w y k = rowbit body w y k := by
    funext j
    rcases Nat.lt_or_ge (8 * k + j) w with hx | hx
    · rw [rowbit, rowbit, outbit, outbit, hbits _ (pixel_index_lt hy hx)]
    · rw [rowbit_of_width_le _ _ hx, rowbit_of_width_le _ _ hx]
  rw [rowbyte, rowbyte, hrow]

/-- Two bodies with the same first `width*height` bits encode alike (R94). -/
theorem encodeImage_congr (p : Params) : encodeImage p w h other = encodeImage p w h body := by
  have hrows : ∀ y ∈ List.range h, rowBytes other w y = rowBytes body w y := fun y hy =>
    List.map_congr_left fun k _ => rowbyte_congr hbits (List.mem_range.mp hy) k
  rw [encodeImage, encodeImage, pixeldata, pixeldata, List.flatMap_congr hrows]

end

/-- Settles O45: byte 0 does not appear in what accepts an input, and appending bytes or exchanging unused bits changes neither
that nor a bit that the output depends on. -/
theorem unusedInputHasNoEffect : Obligations.UnusedInputHasNoEffect := by
  intro p u w h d body out hout
  obtain ⟨hacc, himage⟩ := convert_eq_ok_iff.mp hout
  refine ⟨fun more => ?_, fun v => convert_eq_ok_iff.mpr ⟨hacc, himage⟩, fun other hlen hbits => ?_⟩
  · have hmore : body.length ≤ (body ++ more).length := by rw [List.length_append]; omega
    have hbits : ∀ i, i < w.toNat * h.toNat → srcbit (body ++ more) i = srcbit body i := fun i hi =>
      srcbit_congr (List.getElem?_append_left ((shiftRight_three_lt_packedByteCount hi).trans_le hacc.enough))
    exact convert_eq_ok_iff.mpr ⟨{ hacc with
      longEnough := hacc.longEnough.trans_le (Nat.add_le_add_right hmore 4), enough := hacc.enough.trans hmore },
      (encodeImage_congr hbits p).trans himage⟩
  · exact convert_eq_ok_iff.mpr ⟨hlen ▸ hacc, (encodeImage_congr hbits p).trans himage⟩

/-! ## The outcome of a transaction (R33, R87) -/

/-- Two blocks show the host the same outcome: the registers that R87 names and `OUT[0..OUT_LEN)`. -/
structure State.SameOutcome (t₁ t₂ : State) : Prop where
  st       : t₁.st = t₂.st
  err      : t₁.err = t₂.err
  width    : t₁.width = t₂.width
  height   : t₁.height = t₂.height
  depth    : t₁.depth = t₂.depth
  expected : t₁.expected = t₂.expected
  actual   : t₁.actual = t₂.actual
  outLen   : t₁.outLen = t₂.outLen
  out      : ∀ a, a < t₁.outLen.toNat → t₁.outMem.read a = t₂.outMem.read a

/-- The core reads the input that the host has written (R42, R174). -/
theorem inByte_of_inputWritten {s : State} {buf : List Byte} (hs : s.InputWritten buf) {a : Nat} (h1 : 1 ≤ a) (h2 : a < 8133)
    (ha : a < buf.length) : inByte s a = buf[a] := by
  obtain ⟨hlen, hread⟩ := hs
  exact inByte_written (hlen ▸ ha) (hread a h1 h2 _ (List.getElem?_eq_getElem ha))

/-- The bytes of the body that a header can demand are those of the input (R3, R62). -/
theorem body_getElem?_of_inputWritten {s : State} {buf : List Byte} (hs : s.InputWritten buf) {k : Nat} (hk : k < 8129) :
    s.body[k]? = buf[4 + k]? := by
  rw [body_getElem?, ← hs.1]
  by_cases h : 4 + k < buf.length
  · rw [if_pos ⟨h, by omega⟩, inByte_of_inputWritten hs (by omega) (by omega) h, List.getElem?_eq_getElem h]
  · rw [if_neg (fun hc => h hc.1), List.getElem?_eq_none (Nat.le_of_not_lt h)]

/-- Inside a block that was just written, what the buffer held before does not show. -/
theorem Memory.read_writeBlock_forgets (m n : Memory) {a b : Nat} {bytes : List Byte} (hb : a ≤ b ∧ b < a + bytes.length) :
    (m.writeBlock a bytes).read b = (n.writeBlock a bytes).read b := by
  rw [Memory.read_writeBlock, Memory.read_writeBlock, if_pos hb, if_pos hb]

section
variable {s₁ s₂ : State} {buf : List Byte} (hb₁ : s₁.st ≠ .busy) (hb₂ : s₂.st ≠ .busy) (hp : s₁.params = s₂.params)
  (h₁ : s₁.InputWritten buf) (h₂ : s₂.InputWritten buf)

include h₁ h₂ in
theorem inLen_eq_of_inputWritten : s₁.inLen = s₂.inLen := h₁.1.symm.trans h₂.1

include hp h₁ h₂ in
/-- Two blocks that present the same input encode the same image. -/
theorem encodeImage_eq_of_inputWritten (w h : Byte) :
    encodeImage s₁.params w.toNat h.toNat s₁.body = encodeImage s₂.params w.toNat h.toNat s₂.body := by
  rw [hp]
  refine encodeImage_congr (fun i hi => srcbit_congr ?_) _
  have hk : i >>> 3 < 8129 := (shiftRight_three_lt_packedByteCount hi).trans_le (packedByteCount_le w h)
  rw [body_getElem?_of_inputWritten h₁ hk, body_getElem?_of_inputWritten h₂ hk]

include hb₁ hb₂ hp h₁ h₂

/-- T.CONVERT publishes the same image in both blocks (R148). -/
theorem execTConvert_sameOutcome (u₁ u₂ : Byte) {w h : Byte} (hw : w ≠ 0) (hh : h ≠ 0) :
    ∃ t₁ t₂, execTConvert u₁ w h s₁ = .next t₁ ∧ execTConvert u₂ w h s₂ = .next t₂ ∧ t₁.SameOutcome t₂ := by
  have hlen := inLen_eq_of_inputWritten h₁ h₂
  have himage : encodeImage s₂.params w.toNat h.toNat s₂.begin.body = encodeImage s₁.params w.toNat h.toNat s₁.begin.body :=
    (encodeImage_eq_of_inputWritten (s₁ := s₁.begin) (s₂ := s₂.begin) hp h₁ h₂ w h).symm
  refine ⟨_, _, execTConvert_eq hb₁ u₁ hw hh, execTConvert_eq hb₂ u₂ hw hh, ?_⟩
  rw [himage]
  constructor
  case out =>
    intro a ha
    have hfits : a < (encodeImage s₁.params w.toNat h.toNat s₁.begin.body).length := by
      obtain ⟨-, -, -, hsize⟩ := latchGeometry_geometryOk (latchCounts (withHeader w h 1 s₁.begin))
      rw [encodeImage_length]
      exact ha.trans_eq hsize
    simp only [putOut_outMem]
    exact Memory.read_writeBlock_forgets _ _ ⟨Nat.zero_le a, (Nat.zero_add _).symm ▸ hfits⟩
  all_goals simp [expectedBytes, actualBytes, hlen]

/-- Past the length check, two blocks that present the same input end alike: the class, but for the unused byte 0, is the same, and
each class reads only the header, the length and the body (R73, R87). -/
theorem exec_class_sameOutcome {p : Params} {n : Nat} (hn : p.tooSmallMax.toNat < n) (u₁ u₂ w h d : Byte) :
    ∃ t₁ t₂, exec (decodeHeader p n (headerWordOf u₁ w h d)) s₁ = .next t₁
      ∧ exec (decodeHeader p n (headerWordOf u₂ w h d)) s₂ = .next t₂ ∧ t₁.SameOutcome t₂ := by
  have hlen := inLen_eq_of_inputWritten h₁ h₂
  rw [decodeHeader_headerWordOf hn, decodeHeader_headerWordOf hn]
  split_ifs with hw hh hs hd
  case neg => exact execTConvert_sameOutcome hb₁ hb₂ hp h₁ h₂ u₁ u₂ hw hh
  all_goals
    refine ⟨_, _, whenHostOwns_of_not_busy _ hb₁, whenHostOwns_of_not_busy _ hb₂, ?_⟩
    constructor <;> simp [expectedBytes, actualBytes, hlen]

/-- A whole transaction ends alike in two blocks that are not BUSY and present the same input under the same parameters. -/
theorem transaction_sameOutcome :
    ∃ t₁ t₂, takeTurn .convert s₁ = .next t₁ ∧ takeTurn .convert s₂ = .next t₂ ∧ t₁.SameOutcome t₂ := by
  have hlen := inLen_eq_of_inputWritten h₁ h₂
  rw [takeTurn_convert, takeTurn_convert, ← hp, ← hlen]
  rcases Nat.lt_or_ge s₁.params.tooSmallMax.toNat s₁.inLen with hn | hn
  · have hbyte : ∀ a, 1 ≤ a → a ≤ 3 → inByte s₂.begin a = inByte s₁.begin a := fun a h1 h3 => by
      have ha : a < buf.length := by
        have := three_le_tooSmallMax s₁.params.tooSmallMax
        rw [h₁.1]; omega
      rw [inByte_of_inputWritten (s := s₁.begin) h₁ h1 (by omega) ha,
        inByte_of_inputWritten (s := s₂.begin) h₂ h1 (by omega) ha]
    rw [headerWord, headerWord, hbyte 1 (by decide) (by decide), hbyte 2 (by decide) (by decide),
      hbyte 3 (by decide) (by decide)]
    exact exec_class_sameOutcome hb₁ hb₂ hp h₁ h₂ hn _ _ _ _ _
  · rw [decodeHeader_of_le _ hn, decodeHeader_of_le _ hn]
    refine ⟨_, _, whenHostOwns_of_not_busy _ hb₁, whenHostOwns_of_not_busy _ hb₂, ?_⟩
    constructor <;> simp

end

/-- Settles O60: the step is the transaction turn, taken off the list in both blocks. -/
theorem outcomeForgetsThePast : Obligations.OutcomeForgetsThePast := by
  intro s₁ s₂ buf hb₁ hb₂ hp h₁ h₂
  obtain ⟨t₁, t₂, ht₁, ht₂, hsame⟩ :=
    transaction_sameOutcome (s₁ := { s₁ with turns := [] }) (s₂ := { s₂ with turns := [] }) hb₁ hb₂ hp h₁ h₂
  exact ⟨t₁, t₂, ht₁, ht₂, hsame.st, hsame.err, hsame.width, hsame.height, hsame.depth, hsame.expected, hsame.actual,
    hsame.outLen, hsame.out⟩

end Sys2Proof.Machine
end

section
/-! PROOFS. 41_bit_unpacker.md: what U.BIT yields (R90, R91), that it is never absent where K.SHIFT is enabled (R92), and that what
the decoder answers is well formed and never U.BIT. -/

namespace Sys2Proof.Machine

/-! ## The decoder's answers -/

/-- An instruction that a fetched word may stand for: a well-formed one other than U.BIT, which no word encodes (R91). -/
def Selectable (p : Params) (i : Instr) : Prop := i.wellFormed p = true ∧ i ≠ .uBit

/-- The class of a header meets the conditions of its row (R72); a body that is short of the length there is, is short of the
least length past the threshold too. -/
theorem decodeHeader_selectable (p : Params) (n : Nat) (word : HeaderWord) : Selectable p (decodeHeader p n word) := by
  rcases decodeHeader_cases p n word with ⟨-, e⟩ | ⟨hn, u, w, h, d, -, -, -, ⟨-, e⟩ | ⟨hw, -, e⟩ | ⟨hw, hh, hs, e⟩ |
    ⟨hw, hh, -, hd, e⟩ | ⟨hw, hh, -, -, e⟩⟩ <;> rw [e]
  · exact ⟨rfl, nofun⟩
  · exact ⟨rfl, nofun⟩
  · exact ⟨by simpa [Instr.wellFormed] using hw, nofun⟩
  · have hleast : p.tooSmallMax.toNat + 1 - 4 < packedByteCount w.toNat h.toNat := by omega
    exact ⟨by simpa [Instr.wellFormed] using And.intro (And.intro hw hh) hleast, nofun⟩
  · exact ⟨by simpa [Instr.wellFormed] using And.intro (And.intro hw hh) hd, nofun⟩
  · exact ⟨by simpa [Instr.wellFormed] using And.intro hw hh, nofun⟩

/-- Phase 10 selects K.SHIFT, whose first half U.BIT is, and never U.BIT on its own (R71). -/
theorem decodePix_selectable (p : Params) (c : LoopCounters) : Selectable p (decodePix c) := by
  rcases decodePix_cases c with ⟨-, e⟩ | ⟨-, -, e⟩ | ⟨-, -, -, e⟩ | ⟨-, -, -, e⟩ <;> rw [e] <;> exact ⟨rfl, nofun⟩

/-- A core operation has no operand that could be ill formed (R71). -/
theorem decodePhase_selectable (p : Params) {code : BitVec 4} {c : LoopCounters} {i : Instr} (h : decodePhase code c = .ok i) :
    Selectable p i := by
  rcases decodePhase_ok h with ⟨-, rfl⟩ | ⟨-, rfl⟩ | ⟨-, rfl⟩ | ⟨-, rfl⟩ | ⟨-, rfl⟩ | ⟨-, rfl⟩ | ⟨-, rfl⟩ | ⟨-, rfl⟩ |
    ⟨-, rfl⟩ | ⟨-, rfl⟩ | ⟨-, rfl⟩
  iterate 9 · exact ⟨rfl, nofun⟩
  · exact decodePix_selectable p c
  · exact ⟨rfl, nofun⟩

/-- The length that a register write stands for is cut to `LEN_BITS` bits (R25). -/
theorem decodeRegWrite_selectable {p : Params} {r : RegNum} {d : Nat} {i : Instr} (h : decodeRegWrite p r d = .ok i) :
    Selectable p i := by
  rcases decodeRegWrite_ok h with ⟨-, -, rfl⟩ | ⟨-, -, -, rfl⟩ | ⟨-, rfl⟩
  · exact ⟨rfl, nofun⟩
  · exact ⟨rfl, nofun⟩
  · exact ⟨decide_eq_true (Nat.mod_lt d (Nat.two_pow_pos p.lenBits)), nofun⟩

/-- Settles O2: by the format; an address is decoded only where it fits its width. -/
theorem decodedInstructionIsWellFormed : Obligations.DecodedInstructionIsWellFormed := by
  intro p f i h
  cases f with
  | otbhdr n word => cases h; exact decodeHeader_selectable p n word
  | phase code c => exact decodePhase_selectable p h
  | inwr a v =>
    obtain ⟨ha, hi⟩ := fits_ok h
    cases hi; exact ⟨decide_eq_true ha, nofun⟩
  | regwr r d =>
    obtain ⟨-, hi⟩ := fits_ok h
    exact decodeRegWrite_selectable hi
  | regrd r => cases h; exact ⟨rfl, nofun⟩
  | outrd a =>
    obtain ⟨ha, hi⟩ := fits_ok h
    cases hi; exact ⟨decide_eq_true ha, nofun⟩

/-! ## The bit that U.BIT yields (R91) -/

/-- U.BIT as one record update (log entry 6). -/
theorem exec_uBit (s : State) : exec .uBit s = .next { s with sbit := sourceBit s } := rfl

/-- The source bit with its address and bit number as quotient and remainder (R91). -/
theorem sourceBit_eq (s : State) :
    sourceBit s = if 4 + s.sidx.toNat / 8 < s.inLen then
      some (decide ((inByte s (4 + s.sidx.toNat / 8)).toNat / 2 ^ (7 - s.sidx.toNat % 8) % 2 = 1)) else none := by
  simp only [sourceBit, Nat.shiftRight_eq_div_pow, Nat.reducePow, msbBit_eq]

theorem sourceBit_eq_none_iff (s : State) : sourceBit s = none ↔ s.inLen ≤ 4 + s.sidx.toNat / 8 := by
  simp [sourceBit_eq]

/-- Settles O18: the yielded value is the source bit. -/
theorem sourceBitFetch : Obligations.SourceBitFetch := by
  refine fun s => ⟨_, exec_uBit s, (sourceBit_eq_none_iff s).mpr, fun hlt => ?_, fun b hlt hb => ?_⟩
  · exact mt (sourceBit_eq_none_iff s).mp (Nat.not_le.mpr hlt)
  · rw [sourceBit_eq, if_pos hlt, inByte_written hlt hb]

/-- Up to the greatest index, the body reaches as far as the input does: its byte `SIDX div 8` is the one at `4 + SIDX div 8`. -/
theorem sourceBit_eq_srcbit {s : State} (h : s.sidx.toNat ≤ 65025) : sourceBit s = srcbit s.body s.sidx.toNat := by
  have hreach : 4 + s.sidx.toNat >>> 3 < 8192 := by rw [Nat.shiftRight_eq_div_pow]; omega
  rw [sourceBit, srcbit, body_getElem?]
  by_cases hlen : 4 + s.sidx.toNat >>> 3 < s.inLen
  · rw [if_pos hlen, if_pos ⟨hlen, hreach⟩, Option.map_some]
  · rw [if_neg hlen, if_neg (not_and_of_not_left _ hlen), Option.map_none]

/-- Settles O19. -/
theorem sourceBitIsSrcbit : Obligations.SourceBitIsSrcbit :=
  fun s h => (exec_uBit s).trans (by rw [sourceBit_eq_srcbit h])

/-! ## Where K.SHIFT is enabled (R92) -/

/-- K.SHIFT is enabled in phase PIX alone, with pixels of the row left (R71). -/
theorem coreFetch_kShift {s : State} (h : decode s.params (coreFetch s) = .ok .kShift) :
    s.phase = 10 ∧ s.x.toNat < s.width.toNat := by
  rcases decodePhase_ok h with ⟨-, ⟨⟩⟩ | ⟨-, ⟨⟩⟩ | ⟨-, ⟨⟩⟩ | ⟨-, ⟨⟩⟩ | ⟨-, ⟨⟩⟩ | ⟨-, ⟨⟩⟩ | ⟨-, ⟨⟩⟩ | ⟨-, ⟨⟩⟩ | ⟨-, ⟨⟩⟩ |
    ⟨hp, hpix⟩ | ⟨-, ⟨⟩⟩
  refine ⟨hp, ?_⟩
  rcases decodePix_cases ⟨s.x, s.width, s.nacc, s.kb, s.pbpr⟩ with ⟨hx, -⟩ | ⟨-, -, e⟩ | ⟨-, -, -, e⟩ | ⟨-, -, -, e⟩
  · exact hx
  all_goals cases hpix.trans e

/-- In phase PIX the body has the bytes that the header demands, because check 3 passed (R84, R93). -/
theorem State.PhaseOk.body_present {s : State} (hs : s.PhaseOk) (hp : s.phase = 10) :
    packedByteCount s.width.toNat s.height.toNat ≤ s.inLen - 4 := by
  obtain ⟨hexpected, hactual, hle⟩ := hs.counted (by simp [hp])
  rwa [← hexpected, ← hactual]

/-- Settles O20: the pixel at `X`, `Y` is one of the image, so its bit lies in a byte that check 3 found to be there. -/
theorem sourceBitIsNeverAbsent : Obligations.SourceBitIsNeverAbsent := by
  intro s hinv hb hi
  obtain ⟨hp, hx⟩ := coreFetch_kShift hi
  have hs : s.PhaseOk := hinv.running hb
  have hpix : s.PixOk := hs.pixels (by simp [hp])
  have hindex : s.sidx.toNat < s.width.toNat * s.height.toNat := hpix.index ▸ pixel_index_lt hpix.yBound hx
  have hbyte := shiftRight_three_lt_packedByteCount hindex
  have hpresent := hs.body_present hp
  have hsome : sourceBit s ≠ none := by
    rw [Ne, sourceBit_eq_none_iff]
    rw [Nat.shiftRight_eq_div_pow] at hbyte
    omega
  obtain ⟨b, hbit⟩ := Option.ne_none_iff_exists'.mp hsome
  exact ⟨b, hbit ▸ exec_uBit s⟩

end Sys2Proof.Machine
end

section
/-! PROOFS. 42_bit_repacker.md: the operations of stage K (R104 to R108), the fidelity of the output bits (R111), and that every
step keeps the invariant of the machine, the items of R109 and the table of register values under R34 included. -/

namespace Sys2Proof.Machine

/-! ## The operations of stage K (R104 to R108) -/

/-- K.GEOM as one record update (R104). -/
theorem exec_kGeom (s : State) : exec .kGeom s = .next ((latchGeometry s).setPhase 7) := rfl

/-- Settles O21: the geometry registers hold the geometry of the image, which is made of the two ceilings. -/
theorem geometryRegisters : Obligations.GeometryRegisters := by
  intro s b q hb hq
  obtain ⟨rfl, hpadded⟩ := paddedBytesPerRow_of_isCeilDiv hb hq
  obtain ⟨hbpr, hpbpr, himg, hfsize⟩ := latchGeometry_geometryOk s
  refine ⟨_, exec_kGeom s, hbpr, ?_, ?_, ?_, rfl⟩
  · exact hpbpr.trans hpadded
  · exact himg.trans (congrArg (· * s.height.toNat) hpadded)
  · exact hfsize.trans (congrArg (62 + · * s.height.toNat) hpadded)

/-- The accumulator after a new bit, as a number: bit 0 is free after the shift (R105). -/
theorem shiftIn_eq_ofNat (acc : Byte) (o : Bool) : shiftIn acc o = BitVec.ofNat 8 (2 * acc.toNat + o.toNat) := by
  have hdisjoint : acc <<< 1 &&& (BitVec.ofBool o).setWidth 8 = 0#8 := by
    ext j
    cases j <;> simp
  rw [shiftIn, ← BitVec.add_eq_or_of_and_eq_zero _ _ hdisjoint]
  apply BitVec.eq_of_toNat_eq
  cases o <;> simp [Nat.shiftLeft_eq, Nat.mul_comm]

/-- The bit that K.SHIFT takes in, as a number: 1 for an absent source bit and the complement of a written one (R100, R105). -/
theorem invertBit_sourceBit_toNat {s : State} {b : Byte} (hlt : 4 + s.sidx.toNat / 8 < s.inLen)
    (hb : s.inMem.read (4 + s.sidx.toNat / 8) = some b) :
    (invertBit (sourceBit s)).toNat = 1 - b.toNat / 2 ^ (7 - s.sidx.toNat % 8) % 2 := by
  rw [sourceBit_eq, if_pos hlt, inByte_written hlt hb]
  rcases Nat.mod_two_eq_zero_or_one (b.toNat / 2 ^ (7 - s.sidx.toNat % 8)) with h | h <;> simp [invertBit, h]

/-- K.SHIFT on the eighth bit, as one record update (R105). -/
theorem exec_kShift_of_seven {s : State} (h7 : s.nacc = 7) : exec .kShift s = .next { s with
    outMem := s.outMem.write s.oaddr.toNat (shiftIn s.acc (invertBit (sourceBit s)))
    oaddr := s.oaddr + 1, kb := s.kb + 1, acc := 0, nacc := 0, x := s.x + 1, sidx := s.sidx + 1, phase := 10 } := by
  simp only [exec, execKShift, if_pos h7, State.setPhase, emptyAcc, State.emitByte, State.putOut, nextPixel,
    Memory.writeBlock_one]

/-- K.SHIFT before the eighth bit, as one record update (R105). -/
theorem exec_kShift_of_ne_seven {s : State} (h7 : s.nacc ≠ 7) : exec .kShift s = .next { s with
    acc := shiftIn s.acc (invertBit (sourceBit s)), nacc := s.nacc + 1, x := s.x + 1, sidx := s.sidx + 1, phase := 10 } :=
  congrArg Host.Outcome.next (if_neg h7)

/-- Settles O22: by whether the bit is the eighth. -/
theorem shiftTakesOnePixel : Obligations.ShiftTakesOnePixel := by
  intro s
  refine ⟨(invertBit (sourceBit s)).toNat, Bool.toNat_le _, fun hle => ?_, fun b => invertBit_sourceBit_toNat,
    fun hn => ?_, fun hn => ?_⟩
  · rw [(sourceBit_eq_none_iff s).mpr hle]; rfl
  · rw [← shiftIn_eq_ofNat]
    exact exec_kShift_of_ne_seven fun h7 => by simp [h7] at hn
  · rw [← shiftIn_eq_ofNat]
    exact ⟨_, exec_kShift_of_seven (BitVec.eq_of_toNat_eq hn), Memory.read_write_same _ _ _,
      fun a ha => Memory.read_write_other _ _ _ _ ha, rfl⟩

/-- A shift to the left is the product with a power of two, cut to the byte. -/
theorem shiftLeft_eq_ofNat (acc : Byte) (n : Nat) : acc <<< n = BitVec.ofNat 8 (acc.toNat * 2 ^ n) := by
  apply BitVec.eq_of_toNat_eq
  simp [Nat.shiftLeft_eq]

/-- K.FLUSH as one record update (R106). -/
theorem exec_kFlush (s : State) : exec .kFlush s = .next { s with
    outMem := s.outMem.write s.oaddr.toNat (s.acc <<< (8 - s.nacc.toNat))
    oaddr := s.oaddr + 1, kb := s.kb + 1, acc := 0, nacc := 0, phase := 10 } := by
  simp only [exec, execKFlush, State.setPhase, emptyAcc, State.emitByte, State.putOut, Memory.writeBlock_one]

/-- Settles O23: the byte is the accumulator shifted to the top. -/
theorem flushWritesPartialByte : Obligations.FlushWritesPartialByte := by
  intro s _
  refine ⟨_, exec_kFlush s, ?_, fun a ha => Memory.read_write_other _ _ _ _ ha, rfl⟩
  rw [← shiftLeft_eq_ofNat]
  exact Memory.read_write_same _ _ _

/-- Settles O24. -/
theorem padWritesZeroByte : Obligations.PadWritesZeroByte := fun s =>
  ⟨_, rfl, (emitByte_read s 0 _).trans (if_pos rfl), fun a ha => (emitByte_read s 0 a).trans (if_neg ha), rfl⟩

/-- The row counter does not wrap below the height (R18, R108). -/
theorem y_succ_toNat {s : State} (hy : s.y.toNat < s.height.toNat) : (s.y + 1).toNat = s.y.toNat + 1 := by
  have := s.height.isLt
  rw [BitVec.toNat_add_of_lt (by simp; omega)]
  rfl

theorem y_succ_eq_height_iff {s : State} (hy : s.y.toNat < s.height.toNat) :
    s.y + 1 = s.height ↔ s.y.toNat + 1 = s.height.toNat := by
  rw [BitVec.toNat_eq, y_succ_toNat hy]

/-- Settles O25: the new row is the height as a number exactly where it is as a register value. -/
theorem nextRowOrFinish : Obligations.NextRowOrFinish := by
  intro s hy
  refine ⟨_, rfl, y_succ_toNat hy, fun hlast => ?_, fun hmore => ?_⟩
  · rw [if_pos ((y_succ_eq_height_iff hy).mpr hlast)]; rfl
  · rw [if_neg (mt (y_succ_eq_height_iff hy).mp hmore)]; rfl

/-! ## The fidelity of the output bits (R111) -/

/-- The bit of a row byte that stands for a pixel of the row is that pixel's output bit (R102). -/
theorem rowbyte_getLsbD_pixel (body : List Byte) {w x : Nat} (y : Nat) (hx : x < w) :
    (rowbyte body w y (x / 8)).getLsbD (7 - x % 8) = outbit body w y x := by
  have hdata : ¬ bytesPerRow w ≤ x / 8 := by rw [bytesPerRow_eq]; omega
  have hpixel : 8 * (x / 8) + (7 - (7 - x % 8)) = x := by omega
  rw [rowbyte_getLsbD _ _ _ _ _ (by omega), if_neg hdata, rowbit, hpixel, decide_eq_true hx, Bool.true_and]

/-- Settles O43: the pixel's bit stands in byte `x div 8` of its row. -/
theorem roundTripBitFidelity : Obligations.RoundTripBitFidelity := by
  intro p w h body y x hy hx
  have hdata : x / 8 < paddedBytesPerRow w := by
    have := bytesPerRow_le_padded w
    rw [bytesPerRow_eq] at this; omega
  refine ⟨_, encodeImage_getElem?_row p body hy hdata, fun v hv => ?_, fun hnone => ?_⟩
  · rw [rowbyte_getLsbD_pixel body y hx, outbit, hv]; rfl
  · rw [rowbyte_getLsbD_pixel body y hx, outbit, hnone]; rfl

/-! ## What each phase has established (R34, R109, R136) -/

/-- No header byte is latched yet (R82). -/
def State.HeaderUnread (s : State) : Prop := s.width = 0 ∧ s.height = 0 ∧ s.depth = 0

/-- The header registers hold the input bytes 1, 2 and 3 (R82). -/
def State.HeaderLatched (s : State) : Prop := s.width = inByte s 1 ∧ s.height = inByte s 2 ∧ s.depth = inByte s 3

/-- Check 2 has passed (R83). -/
def State.Dimensioned (s : State) : Prop := s.width ≠ 0 ∧ s.height ≠ 0

/-- The two counts are as H.START left them (R143). -/
def State.Uncounted (s : State) : Prop := s.expected = 0 ∧ s.actual = 0

/-- The two counts are latched and check 3 has passed (R84). -/
def State.Counted (s : State) : Prop :=
  s.expected.toNat = packedByteCount s.width.toNat s.height.toNat ∧ s.actual = s.inLen - 4 ∧ s.expected.toNat ≤ s.actual

/-- The geometry and all loop registers are as H.START left them (R143). -/
def State.Unstarted (s : State) : Prop :=
  (s.bpr = 0 ∧ s.pbpr = 0 ∧ s.img = 0 ∧ s.fsize = 0) ∧ s.LoopCleared ∧ s.oaddr = 0

/-- All four checks have passed (R80). -/
def State.Accepted (s : State) : Prop :=
  s.params.tooSmallMax.toNat < s.inLen ∧ s.HeaderLatched ∧ s.Dimensioned ∧ s.Counted ∧ s.depth = 1

/-- `OUT` holds the 62 header bytes (R127 to R129). -/
def State.HeaderWritten (s : State) : Prop :=
  s.OutHolds 0 (fileHeader s.params s.fsize.toNat)
    ∧ s.OutHolds 14 (infoHeader s.width.toNat s.height.toNat s.img.toNat) ∧ s.OutHolds 54 palette

/-- `PhaseOk` item by item, in the words of the predicates above. -/
theorem phaseOk_iff (s : State) : s.PhaseOk ↔
    (2 ≤ s.phase.toNat → s.params.tooSmallMax.toNat < s.inLen)
    ∧ (s.phase.toNat ≤ 2 → s.HeaderUnread) ∧ (3 ≤ s.phase.toNat → s.HeaderLatched)
    ∧ (4 ≤ s.phase.toNat → s.Dimensioned)
    ∧ (s.phase.toNat ≤ 4 → s.Uncounted) ∧ (5 ≤ s.phase.toNat → s.Counted)
    ∧ (6 ≤ s.phase.toNat → s.depth = 1)
    ∧ (s.phase.toNat ≤ 6 → s.bpr = 0 ∧ s.pbpr = 0 ∧ s.img = 0 ∧ s.fsize = 0) ∧ (7 ≤ s.phase.toNat → s.GeometryOk)
    ∧ (s.phase.toNat ≤ 9 → s.LoopCleared) ∧ (s.phase.toNat ≤ 7 → s.oaddr = 0)
    ∧ (8 ≤ s.phase.toNat → s.OutHolds 0 (fileHeader s.params s.fsize.toNat)) ∧ (s.phase.toNat = 8 → s.oaddr = 14)
    ∧ (9 ≤ s.phase.toNat → s.OutHolds 14 (infoHeader s.width.toNat s.height.toNat s.img.toNat))
    ∧ (s.phase.toNat = 9 → s.oaddr = 54) ∧ (10 ≤ s.phase.toNat → s.OutHolds 54 palette)
    ∧ (s.phase.toNat = 10 → s.PixOk) ∧ (s.phase.toNat = 11 → s.FinOk) :=
  ⟨fun ⟨h1, h2, h3, h4, h5, h6, h7, h8, h9, h10, h11, h12, h13, h14, h15, h16, h17, h18⟩ =>
    ⟨h1, h2, h3, h4, h5, h6, h7, h8, h9, h10, h11, h12, h13, h14, h15, h16, h17, h18⟩,
  fun ⟨h1, h2, h3, h4, h5, h6, h7, h8, h9, h10, h11, h12, h13, h14, h15, h16, h17, h18⟩ =>
    ⟨h1, h2, h3, h4, h5, h6, h7, h8, h9, h10, h11, h12, h13, h14, h15, h16, h17, h18⟩⟩

section
variable {s : State}

theorem phaseOk_iff_of_one (hp : s.phase = 1) : s.PhaseOk ↔ s.HeaderUnread ∧ s.Uncounted ∧ s.Unstarted := by
  simp [phaseOk_iff, hp, State.Unstarted]

theorem phaseOk_iff_of_two (hp : s.phase = 2) :
    s.PhaseOk ↔ s.params.tooSmallMax.toNat < s.inLen ∧ s.HeaderUnread ∧ s.Uncounted ∧ s.Unstarted := by
  simp [phaseOk_iff, hp, State.Unstarted]

theorem phaseOk_iff_of_three (hp : s.phase = 3) :
    s.PhaseOk ↔ s.params.tooSmallMax.toNat < s.inLen ∧ s.HeaderLatched ∧ s.Uncounted ∧ s.Unstarted := by
  simp [phaseOk_iff, hp, State.Unstarted]

theorem phaseOk_iff_of_four (hp : s.phase = 4) :
    s.PhaseOk ↔ s.params.tooSmallMax.toNat < s.inLen ∧ s.HeaderLatched ∧ s.Dimensioned ∧ s.Uncounted ∧ s.Unstarted := by
  simp [phaseOk_iff, hp, State.Unstarted]

theorem phaseOk_iff_of_five (hp : s.phase = 5) :
    s.PhaseOk ↔ s.params.tooSmallMax.toNat < s.inLen ∧ s.HeaderLatched ∧ s.Dimensioned ∧ s.Counted ∧ s.Unstarted := by
  simp [phaseOk_iff, hp, State.Unstarted]

theorem phaseOk_iff_of_six (hp : s.phase = 6) : s.PhaseOk ↔ s.Accepted ∧ s.Unstarted := by
  simp [phaseOk_iff, hp, State.Unstarted, State.Accepted, and_assoc]

theorem phaseOk_iff_of_seven (hp : s.phase = 7) :
    s.PhaseOk ↔ s.Accepted ∧ s.GeometryOk ∧ s.LoopCleared ∧ s.oaddr = 0 := by
  simp [phaseOk_iff, hp, State.Accepted, and_assoc]

theorem phaseOk_iff_of_eight (hp : s.phase = 8) :
    s.PhaseOk ↔ s.Accepted ∧ s.GeometryOk ∧ s.LoopCleared
      ∧ s.OutHolds 0 (fileHeader s.params s.fsize.toNat) ∧ s.oaddr = 14 := by
  simp [phaseOk_iff, hp, State.Accepted, and_assoc]

theorem phaseOk_iff_of_nine (hp : s.phase = 9) :
    s.PhaseOk ↔ s.Accepted ∧ s.GeometryOk ∧ s.LoopCleared ∧ s.OutHolds 0 (fileHeader s.params s.fsize.toNat)
      ∧ s.OutHolds 14 (infoHeader s.width.toNat s.height.toNat s.img.toNat) ∧ s.oaddr = 54 := by
  simp [phaseOk_iff, hp, State.Accepted, and_assoc]

theorem phaseOk_iff_of_ten (hp : s.phase = 10) :
    s.PhaseOk ↔ s.Accepted ∧ s.GeometryOk ∧ s.HeaderWritten ∧ s.PixOk := by
  simp [phaseOk_iff, hp, State.Accepted, State.HeaderWritten, and_assoc]

theorem phaseOk_iff_of_eleven (hp : s.phase = 11) :
    s.PhaseOk ↔ s.Accepted ∧ s.GeometryOk ∧ s.HeaderWritten ∧ s.FinOk := by
  simp [phaseOk_iff, hp, State.Accepted, State.HeaderWritten, and_assoc]

end

/-! ## The phases before PIX -/

/-- The header, the counts and the geometry of `t` are those of `s`, and so is the input that they come from. -/
structure State.SameImage (s t : State) : Prop extends s.SameInput t where
  width    : t.width = s.width
  height   : t.height = s.height
  depth    : t.depth = s.depth
  expected : t.expected = s.expected
  actual   : t.actual = s.actual
  bpr      : t.bpr = s.bpr
  pbpr     : t.pbpr = s.pbpr
  img      : t.img = s.img
  fsize    : t.fsize = s.fsize

section
variable {s t : State} (h : s.SameImage t)
include h

theorem State.SameImage.body_eq : t.body = s.body := body_congr h.inLen h.inMem h.epoch

theorem State.Accepted.congr (hs : s.Accepted) : t.Accepted := by
  unfold State.Accepted State.HeaderLatched State.Dimensioned State.Counted at hs ⊢
  rwa [h.params, h.inLen, h.width, h.height, h.depth, h.expected, h.actual, h.inByte_eq, h.inByte_eq, h.inByte_eq]

theorem State.GeometryOk.congr (hs : s.GeometryOk) : t.GeometryOk := by
  unfold State.GeometryOk at hs ⊢
  rwa [h.width, h.height, h.bpr, h.pbpr, h.img, h.fsize]

/-- The header bytes stay where only the pixel data is written (R44). -/
theorem State.HeaderWritten.congr (hs : s.HeaderWritten) (hout : ∀ a, a < 62 → t.outMem.read a = s.outMem.read a) :
    t.HeaderWritten := by
  obtain ⟨hfile, hinfo, htable⟩ := hs
  unfold State.HeaderWritten
  rw [h.params, h.width, h.height, h.img, h.fsize]
  exact ⟨OutHolds_of_read_eq hfile fun a _ ha => hout a (by rw [fileHeader_length] at ha; omega),
    OutHolds_of_read_eq hinfo fun a _ ha => hout a (by rw [infoHeader_length] at ha; omega),
    OutHolds_of_read_eq htable fun a _ ha => hout a (by rw [palette_length] at ha; omega)⟩

end

/-- A stage F operation: a block of `OUT` is written, and `OADDR` and `PHASE` move on. The bytes are a variable here, because
comparing written buffers by evaluation is slow. -/
theorem sameImage_putOut (s : State) (a : Nat) (bytes : List Byte) (o : BitVec 14) (p : BitVec 4) :
    s.SameImage ({ s.putOut a bytes with oaddr := o }.setPhase p) :=
  ⟨⟨rfl, rfl, rfl, rfl⟩, rfl, rfl, rfl, rfl, rfl, rfl, rfl, rfl, rfl⟩

/-- The loop registers, the accumulator and `PHASE` are no part of the image. -/
theorem sameImage_loops (s : State) (x y : Byte) (kb : BitVec 6) (sidx : BitVec 16) (acc : Byte) (nacc : BitVec 3)
    (p : BitVec 4) :
    s.SameImage { s with x := x, y := y, kb := kb, sidx := sidx, acc := acc, nacc := nacc, phase := p } :=
  ⟨⟨rfl, rfl, rfl, rfl⟩, rfl, rfl, rfl, rfl, rfl, rfl, rfl, rfl, rfl⟩

/-- A block stays in `OUT` when another one is written outside it. -/
theorem OutHolds_writeBlock_outside {s t : State} {a b : Nat} {bytes other : List Byte} (h : s.OutHolds a bytes)
    (hout : t.outMem = s.outMem.writeBlock b other) (hsep : a + bytes.length ≤ b ∨ b + other.length ≤ a) :
    t.OutHolds a bytes :=
  OutHolds_of_read_eq h fun x h1 h2 => by rw [hout]; exact Memory.read_writeBlock_outside _ _ _ _ (by omega)

section
variable {s : State} (hs : s.PhaseOk)

theorem phaseOk_begin (s : State) : s.begin.PhaseOk :=
  (phaseOk_iff_of_one rfl).mpr
    ⟨⟨rfl, rfl, rfl⟩, ⟨rfl, rfl⟩, ⟨rfl, rfl, rfl, rfl⟩, ⟨rfl, rfl, rfl, rfl, rfl, rfl⟩, rfl⟩

include hs

/-- After P.CHKLEN (R81). -/
theorem phaseOk_length_checked (hp : s.phase = 1) (hc : isTooSmall s = false) : (s.setPhase 2).PhaseOk := by
  have hlong : s.params.tooSmallMax.toNat < s.inLen :=
    Nat.not_le.mp (mt (isTooSmall_iff s).mpr (Bool.eq_false_iff.mp hc))
  exact (phaseOk_iff_of_two rfl).mpr ⟨hlong, (phaseOk_iff_of_one hp).mp hs⟩

/-- After P.LATCH (R82). -/
theorem phaseOk_latched (hp : s.phase = 2) :
    ({ s with width := inByte s 1, height := inByte s 2, depth := inByte s 3 }.setPhase 3).PhaseOk := by
  obtain ⟨hlong, -, hcounts, hstart⟩ := (phaseOk_iff_of_two hp).mp hs
  exact (phaseOk_iff_of_three rfl).mpr ⟨hlong, ⟨rfl, rfl, rfl⟩, hcounts, hstart⟩

/-- After P.CHKDIM (R83). -/
theorem phaseOk_dimensions_checked (hp : s.phase = 3) (hc : hasBadDimension s = false) : (s.setPhase 4).PhaseOk := by
  have hdim : s.Dimensioned := by simpa [State.Dimensioned, hasBadDimension] using hc
  obtain ⟨hlong, hlatched, hcounts⟩ := (phaseOk_iff_of_three hp).mp hs
  exact (phaseOk_iff_of_four rfl).mpr ⟨hlong, hlatched, hdim, hcounts⟩

/-- After P.CHKDATA (R84). -/
theorem phaseOk_data_checked (hp : s.phase = 4) (hc : isShort s = false) : ((latchCounts s).setPhase 5).PhaseOk := by
  have henough : packedByteCount s.width.toNat s.height.toNat ≤ s.inLen - 4 :=
    Nat.not_lt.mp (mt (isShort_iff s).mpr (Bool.eq_false_iff.mp hc))
  have hexpected := latchCounts_expected_toNat s
  obtain ⟨hlong, hlatched, hdim, -, hstart⟩ := (phaseOk_iff_of_four hp).mp hs
  exact (phaseOk_iff_of_five rfl).mpr ⟨hlong, hlatched, hdim, ⟨hexpected, rfl, hexpected.trans_le henough⟩, hstart⟩

/-- After P.CHKDEPTH (R85). -/
theorem phaseOk_depth_checked (hp : s.phase = 5) (hc : hasBadDepth s = false) : (s.setPhase 6).PhaseOk := by
  have hdepth : s.depth = 1 := by simpa [hasBadDepth] using hc
  obtain ⟨hlong, hlatched, hdim, hcounts, hstart⟩ := (phaseOk_iff_of_five hp).mp hs
  exact (phaseOk_iff_of_six rfl).mpr ⟨⟨hlong, hlatched, hdim, hcounts, hdepth⟩, hstart⟩

/-- After K.GEOM (R104). -/
theorem phaseOk_geometry_latched (hp : s.phase = 6) : ((latchGeometry s).setPhase 7).PhaseOk := by
  obtain ⟨hacc, -, hloops, haddr⟩ := (phaseOk_iff_of_six hp).mp hs
  exact (phaseOk_iff_of_seven rfl).mpr ⟨hacc, latchGeometry_geometryOk s, hloops, haddr⟩

/-- After F.FILEHDR (R127). -/
theorem phaseOk_fileHeader_written (hp : s.phase = 7) :
    ({ s.putOut 0 (fileHeader s.params s.fsize.toNat) with oaddr := 14 }.setPhase 8).PhaseOk := by
  obtain ⟨hacc, hgeom, hloops, -⟩ := (phaseOk_iff_of_seven hp).mp hs
  generalize hbytes : fileHeader s.params s.fsize.toNat = bytes
  have hsame := sameImage_putOut s 0 bytes 14 8
  refine (phaseOk_iff_of_eight rfl).mpr ⟨hacc.congr hsame, hgeom.congr hsame, hloops, ?_, rfl⟩
  rw [hsame.params, hsame.fsize, hbytes]
  exact OutHolds_writeBlock rfl

/-- After F.INFOHDR (R128). -/
theorem phaseOk_infoHeader_written (hp : s.phase = 8) :
    ({ s.putOut 14 (infoHeader s.width.toNat s.height.toNat s.img.toNat) with oaddr := 54 }.setPhase 9).PhaseOk := by
  obtain ⟨hacc, hgeom, hloops, hfile, -⟩ := (phaseOk_iff_of_eight hp).mp hs
  generalize hbytes : infoHeader s.width.toNat s.height.toNat s.img.toNat = bytes
  have hsame := sameImage_putOut s 14 bytes 54 9
  refine (phaseOk_iff_of_nine rfl).mpr ⟨hacc.congr hsame, hgeom.congr hsame, hloops, ?_, ?_, rfl⟩
  · exact OutHolds_writeBlock_outside hfile rfl (.inl (by simp [fileHeader_length]))
  · rw [hsame.width, hsame.height, hsame.img, hbytes]
    exact OutHolds_writeBlock rfl

end

/-! ## Phase PIX (R109) -/

section
variable {s : State}

/-- The first pixel, once the header is written: all loop registers are 0 (R109). -/
theorem pixOk_start (hloops : s.LoopCleared) (hdim : s.Dimensioned) (haddr : s.oaddr = 62) : s.PixOk := by
  obtain ⟨hx, hy, hkb, hsidx, hacc, hnacc⟩ := hloops
  obtain ⟨hw, hh⟩ : s.width.toNat ≠ 0 ∧ s.height.toNat ≠ 0 := by
    simpa [State.Dimensioned, BitVec.toNat_eq] using hdim
  constructor <;> simp [hx, hy, hkb, hsidx, hacc, hnacc, haddr, hw.symm, Nat.pos_of_ne_zero hh]

/-- A byte of a row above the current one stands below the current row (R103). -/
theorem rowByte_address_lt {y k : Nat} (hy : y < s.y.toNat) (hk : k < s.pbpr.toNat) :
    62 + s.pbpr.toNat * y + k < 62 + s.pbpr.toNat * s.y.toNat := by
  have hrow : s.pbpr.toNat * (y + 1) ≤ s.pbpr.toNat * s.y.toNat := Nat.mul_le_mul_left _ hy
  rw [Nat.mul_succ] at hrow
  omega

section
variable (hs : s.PixOk)
include hs

/-- The pixel index does not wrap (R19). -/
theorem State.PixOk.sidx_lt (hx : s.x.toNat < s.width.toNat) : s.sidx.toNat < 65025 :=
  calc s.sidx.toNat < s.width.toNat * s.height.toNat := hs.index ▸ pixel_index_lt hs.yBound hx
    _ ≤ 65025 := mul_byte_le _ _

/-- The bit that K.SHIFT takes in is the output bit of the pixel at `X`, `Y` (R100, R105). -/
theorem State.PixOk.newBit_eq (hx : s.x.toNat < s.width.toNat) :
    invertBit (sourceBit s) = outbit s.body s.width.toNat s.y.toNat s.x.toNat := by
  rw [sourceBit_eq_srcbit (hs.sidx_lt hx).le, hs.index, outbit]

/-- After the new bit, the accumulator holds one more pixel (R109 item 5). -/
theorem State.PixOk.shiftIn_held (hx : s.x.toNat < s.width.toNat) {j : Nat} (hj : j ≤ s.nacc.toNat) :
    (shiftIn s.acc (invertBit (sourceBit s))).getLsbD j = outbit s.body s.width.toNat s.y.toNat (s.x.toNat - j) := by
  have hlt := s.nacc.isLt
  rw [shiftIn_getLsbD _ _ _ (by omega)]
  split
  · subst_vars; exact hs.newBit_eq hx
  · rw [hs.accHeld _ (by omega)]; congr 1; omega

/-- A full accumulator is the row byte of its eight pixels (R102). -/
theorem State.PixOk.shiftIn_eq_rowbyte (hx : s.x.toNat < s.width.toNat) (h7 : s.nacc.toNat = 7) :
    shiftIn s.acc (invertBit (sourceBit s)) = rowbyte s.body s.width.toNat s.y.toNat s.kb.toNat := by
  obtain ⟨hkb, hnacc⟩ := hs.inRow (.inl hx)
  refine BitVec.eq_of_getLsbD_eq fun j hj => ?_
  have hbyte : (s.x.toNat - j) / 8 = s.kb.toNat := by omega
  have hbit : 7 - (s.x.toNat - j) % 8 = j := by omega
  have hpixel := rowbyte_getLsbD_pixel s.body s.y.toNat (show s.x.toNat - j < s.width.toNat by omega)
  rw [hbyte, hbit] at hpixel
  rw [hs.shiftIn_held hx (by omega), hpixel]

/-- A partly filled accumulator, moved to the top, is the last row byte that has pixels (R102, R106). -/
theorem State.PixOk.flush_eq_rowbyte (hx : s.x.toNat = s.width.toNat) (hn : s.nacc ≠ 0) :
    s.acc <<< (8 - s.nacc.toNat) = rowbyte s.body s.width.toNat s.y.toNat s.kb.toNat := by
  obtain ⟨hkb, hnacc⟩ := hs.inRow (.inr hn)
  have hlt := s.nacc.isLt
  refine BitVec.eq_of_getLsbD_eq fun j hj => ?_
  rw [BitVec.getLsbD_shiftLeft]
  rcases Nat.lt_or_ge j (8 - s.nacc.toNat) with hlow | hhigh
  · rw [rowbyte_getLsbD _ _ _ _ _ hj, rowbit_of_width_le _ _ (by omega)]
    simp [hlow]
  · have hbyte : (8 * s.kb.toNat + 7 - j) / 8 = s.kb.toNat := by omega
    have hbit : 7 - (8 * s.kb.toNat + 7 - j) % 8 = j := by omega
    have hpixel := rowbyte_getLsbD_pixel s.body s.y.toNat (show 8 * s.kb.toNat + 7 - j < s.width.toNat by omega)
    rw [hbyte, hbit] at hpixel
    rw [hpixel, hs.accHeld _ (by omega), show s.x.toNat - 1 - (j - (8 - s.nacc.toNat)) = 8 * s.kb.toNat + 7 - j by omega]
    simp [hj, hhigh]

end

/-- `OADDR` and `KB` do not wrap where a row has room for one more byte (R18, R22). -/
theorem State.PixOk.emit_bounds (hs : s.PixOk) (hgeom : s.GeometryOk) (hroom : s.kb.toNat < s.pbpr.toNat) :
    (s.kb + 1).toNat = s.kb.toNat + 1 ∧ (s.oaddr + 1).toNat = s.oaddr.toNat + 1 := by
  obtain ⟨-, hpbpr, himg, -⟩ := hgeom
  have hrow : s.pbpr.toNat ≤ 32 := hpbpr.trans_le (paddedBytesPerRow_le s.width)
  have hend : s.pbpr.toNat * (s.y.toNat + 1) ≤ 8160 :=
    calc s.pbpr.toNat * (s.y.toNat + 1) ≤ s.pbpr.toNat * s.height.toNat := Nat.mul_le_mul_left _ hs.yBound
      _ = imageDataSize s.width.toNat s.height.toNat := by rw [hpbpr, imageDataSize]
      _ ≤ 8160 := imageDataSize_le _ _
  have haddr := hs.address
  rw [Nat.mul_succ] at hend
  constructor <;> rw [BitVec.toNat_add_of_lt (by simp; omega)] <;> rfl

end

/-- `t` is `s` after an operation of phase PIX that emits byte `v` and leaves the accumulator empty, `X` and `SIDX` aside
(R105 to R107). -/
structure State.Emits (s : State) (v : Byte) (t : State) : Prop where
  image : s.SameImage t
  y     : t.y = s.y
  kb    : t.kb = s.kb + 1
  oaddr : t.oaddr = s.oaddr + 1
  acc   : t.acc = 0
  nacc  : t.nacc = 0
  out   : ∀ a, t.outMem.read a = if a = s.oaddr.toNat then some v else s.outMem.read a

theorem emits_nextPixel (s : State) (v : Byte) : s.Emits v ((emptyAcc ((nextPixel s).emitByte v)).setPhase 10) := by
  refine ⟨⟨⟨?_, ?_, ?_, ?_⟩, ?_, ?_, ?_, ?_, ?_, ?_, ?_, ?_, ?_⟩, ?_, ?_, ?_, ?_, ?_, fun a => ?_⟩ <;>
    simp [Memory.read_write]

theorem emits_emptyAcc (s : State) (v : Byte) : s.Emits v ((emptyAcc (s.emitByte v)).setPhase 10) := by
  refine ⟨⟨⟨?_, ?_, ?_, ?_⟩, ?_, ?_, ?_, ?_, ?_, ?_, ?_, ?_, ?_⟩, ?_, ?_, ?_, ?_, ?_, fun a => ?_⟩ <;>
    simp [Memory.read_write]

theorem emits_emitByte {s : State} (v : Byte) (hacc : s.acc = 0) (hnacc : s.nacc = 0) :
    s.Emits v ((s.emitByte v).setPhase 10) := by
  refine ⟨⟨⟨?_, ?_, ?_, ?_⟩, ?_, ?_, ?_, ?_, ?_, ?_, ?_, ?_, ?_⟩, ?_, ?_, ?_, ?_, ?_, fun a => ?_⟩ <;>
    simp [Memory.read_write, hacc, hnacc]

/-- Emitting the row byte `KB` keeps the items of R109, where the new `X` and `SIDX` fit the new `KB`. -/
theorem pixOk_of_emits {s t : State} {v : Byte} (hs : s.PixOk) (hgeom : s.GeometryOk) (ht : s.Emits v t)
    (hroom : s.kb.toNat < s.pbpr.toNat) (hv : v = rowbyte s.body s.width.toNat s.y.toNat s.kb.toNat)
    (hx : t.x.toNat ≤ s.width.toNat) (hindex : t.sidx.toNat = s.y.toNat * s.width.toNat + t.x.toNat)
    (hinRow : t.x.toNat < s.width.toNat → s.kb.toNat + 1 = t.x.toNat / 8 ∧ 0 = t.x.toNat % 8)
    (hrowEnd : t.x.toNat = s.width.toNat → s.bpr.toNat ≤ s.kb.toNat + 1) : t.PixOk := by
  obtain ⟨hkb, hoaddr⟩ := hs.emit_bounds hgeom hroom
  have haddr := hs.address
  constructor <;> simp only [ht.image.body_eq, ht.image.width, ht.image.height, ht.image.bpr, ht.image.pbpr, ht.y, ht.kb,
    ht.oaddr, ht.acc, ht.nacc, hkb, hoaddr, ht.out]
  case yBound => exact hs.yBound
  case xBound => exact hx
  case kbBound => exact hroom
  case index => exact hindex
  case address => omega
  case inRow => exact fun h => hinRow (h.resolve_right fun h0 => h0 rfl)
  case rowEnd => exact fun h _ => hrowEnd h
  case accHeld => exact fun j hj => absurd hj (Nat.not_lt_zero j)
  case accAbove => exact fun j _ => BitVec.getLsbD_zero
  case rowsDone =>
    intro y k hy hk
    have hlt := rowByte_address_lt hy hk
    rw [if_neg (by omega)]
    exact hs.rowsDone y k hy hk
  case rowSoFar =>
    intro k hk
    rcases Nat.lt_succ_iff_lt_or_eq.mp hk with hlt | rfl
    · rw [if_neg (by omega)]
      exact hs.rowSoFar k hlt
    · rw [if_pos haddr.symm, hv]

/-- A new `X` and a new `SIDX` after a pixel was taken do not wrap (R18, R19). -/
theorem State.PixOk.nextPixel_toNat {s : State} (hs : s.PixOk) (hx : s.x.toNat < s.width.toNat) :
    (s.x + 1).toNat = s.x.toNat + 1 ∧ (s.sidx + 1).toNat = s.sidx.toNat + 1 := by
  have hsidx := hs.sidx_lt hx
  have hwidth := s.width.isLt
  constructor <;> rw [BitVec.toNat_add_of_lt (by simp; omega)] <;> rfl

/-- The four items of phase PIX after a step that stays there: nothing of the image changes, and the header bytes, which end below
`OADDR`, are not written again (R44). -/
theorem phaseOk_of_pixOk {s t : State} (hs : s.PhaseOk) (hp : s.phase = 10) (hsame : s.SameImage t)
    (hout : ∀ a, a < 62 → t.outMem.read a = s.outMem.read a) (htp : t.phase = 10) (ht : t.PixOk) : t.PhaseOk := by
  obtain ⟨hacc, hgeom, hheader, -⟩ := (phaseOk_iff_of_ten hp).mp hs
  exact (phaseOk_iff_of_ten htp).mpr ⟨hacc.congr hsame, hgeom.congr hsame, hheader.congr hsame hout, ht⟩

theorem State.Emits.read_below {s t : State} {v : Byte} (ht : s.Emits v t) (hs : s.PixOk) {a : Nat} (ha : a < 62) :
    t.outMem.read a = s.outMem.read a := by
  have haddr := hs.address
  rw [ht.out, if_neg (by omega)]

/-- In phase PIX the geometry and the items of R109 hold. -/
theorem State.PhaseOk.pix {s : State} (hs : s.PhaseOk) (hp : s.phase = 10) : s.GeometryOk ∧ s.PixOk :=
  ⟨hs.geometry (by simp [hp]), hs.pixels (by simp [hp])⟩

/-- The registers that R109 compares, as numbers: `BPR` is the number of bytes with pixels, and a row has at least as many. -/
theorem State.GeometryOk.bpr_le {s : State} (hs : s.GeometryOk) :
    s.bpr.toNat = (s.width.toNat + 7) / 8 ∧ s.bpr.toNat ≤ s.pbpr.toNat := by
  obtain ⟨hbpr, hpbpr, -, -⟩ := hs
  exact ⟨hbpr.trans (bytesPerRow_eq _), by rw [hbpr, hpbpr]; exact bytesPerRow_le_padded _⟩

/-- In phase PIX an empty accumulator is 0 (R20). -/
theorem State.PixOk.acc_eq_zero {s : State} (hs : s.PixOk) (hn : s.nacc = 0) : s.acc = 0 :=
  BitVec.eq_of_getLsbD_eq fun j _ => (hs.accAbove j (by simp [hn])).trans BitVec.getLsbD_zero.symm

/-- Where a row is complete, `SIDX` and `OADDR` stand at the next one, and all rows down to this one are written (R103, R108). -/
theorem State.PixOk.row_complete {s : State} (hs : s.PixOk) (hx : s.width.toNat ≤ s.x.toNat)
    (hfull : s.pbpr.toNat ≤ s.kb.toNat) :
    s.sidx.toNat = (s.y.toNat + 1) * s.width.toNat ∧ s.oaddr.toNat = 62 + s.pbpr.toNat * (s.y.toNat + 1)
      ∧ ∀ y k, y < s.y.toNat + 1 → k < s.pbpr.toNat →
          s.outMem.read (62 + s.pbpr.toNat * y + k) = some (rowbyte s.body s.width.toNat y k) := by
  have hindex := hs.index
  have haddr := hs.address
  have hxBound := hs.xBound
  have hkbBound := hs.kbBound
  refine ⟨by rw [Nat.succ_mul]; omega, by rw [Nat.mul_succ]; omega, fun y k hy hk => ?_⟩
  rcases Nat.lt_succ_iff_lt_or_eq.mp hy with hlt | rfl
  · exact hs.rowsDone y k hlt hk
  · exact hs.rowSoFar k (hk.trans_le hfull)

/-- `OUT` holds the pixel data where it holds every row byte in its place (R103). -/
theorem OutHolds_pixeldata {s : State} {w h : Nat} {body : List Byte}
    (hrows : ∀ y k, y < h → k < paddedBytesPerRow w →
      s.outMem.read (62 + paddedBytesPerRow w * y + k) = some (rowbyte body w y k)) :
    s.OutHolds 62 (pixeldata w h body) := by
  intro i b hb
  obtain ⟨hi, -⟩ := List.getElem?_eq_some_iff.mp hb
  rw [pixeldata_length, imageDataSize] at hi
  have hpos : 0 < paddedBytesPerRow w := Nat.pos_of_mul_pos_right (Nat.zero_lt_of_lt hi)
  have hrow : i / paddedBytesPerRow w < h := Nat.div_lt_of_lt_mul hi
  have hcol := Nat.mod_lt i hpos
  have hsplit := Nat.div_add_mod i (paddedBytesPerRow w)
  rw [← hsplit, pixeldata_getElem? body w _ _ hcol h hrow] at hb
  rw [← hb, ← hrows _ _ hrow hcol, Nat.add_assoc, hsplit]

section
variable {s : State} (hs : s.PhaseOk)

include hs

/-- After F.PALETTE (R129). -/
theorem phaseOk_palette_written (hp : s.phase = 9) : ({ s.putOut 54 palette with oaddr := 62 }.setPhase 10).PhaseOk := by
  obtain ⟨hacc, hgeom, hloops, hfile, hinfo, -⟩ := (phaseOk_iff_of_nine hp).mp hs
  have ⟨_, _, hdim, _, _⟩ := hacc
  generalize hbytes : palette = bytes
  have hsame := sameImage_putOut s 54 bytes 62 10
  refine (phaseOk_iff_of_ten rfl).mpr ⟨hacc.congr hsame, hgeom.congr hsame, ⟨?_, ?_, ?_⟩, pixOk_start hloops hdim rfl⟩
  · exact OutHolds_writeBlock_outside hfile rfl (.inl (by simp [fileHeader_length]))
  · exact OutHolds_writeBlock_outside hinfo rfl (.inl (by simp [infoHeader_length]))
  · rw [hbytes]
    exact OutHolds_writeBlock rfl

/-- After K.SHIFT on the eighth bit (R105). -/
theorem phaseOk_byte_shifted (hp : s.phase = 10) (hx : s.x.toNat < s.width.toNat) (h7 : s.nacc = 7) :
    ((emptyAcc ((nextPixel s).emitByte (shiftIn s.acc (invertBit (sourceBit s))))).setPhase 10).PhaseOk := by
  obtain ⟨hgeom, hpix⟩ := hs.pix hp
  have h7' : s.nacc.toNat = 7 := by rw [h7]; rfl
  have hv := hpix.shiftIn_eq_rowbyte hx h7'
  have ht := emits_nextPixel s (shiftIn s.acc (invertBit (sourceBit s)))
  obtain ⟨hkb, hnacc⟩ := hpix.inRow (.inl hx)
  obtain ⟨hx', hsidx'⟩ := hpix.nextPixel_toNat hx
  obtain ⟨hbpr, hpbpr⟩ := hgeom.bpr_le
  have hindex := hpix.index
  refine phaseOk_of_pixOk hs hp ht.image (fun _ => ht.read_below hpix) rfl
    (pixOk_of_emits hpix hgeom ht (by omega) hv ?_ ?_ ?_ ?_) <;>
    simp only [setPhase_x, setPhase_sidx, emptyAcc_x, emptyAcc_sidx, emitByte_x, emitByte_sidx, nextPixel_x, nextPixel_sidx,
      hx', hsidx'] <;>
    omega

/-- After K.SHIFT before the eighth bit (R105). -/
theorem phaseOk_bit_shifted (hp : s.phase = 10) (hx : s.x.toNat < s.width.toNat) (h7 : s.nacc ≠ 7) :
    ({ nextPixel s with acc := shiftIn s.acc (invertBit (sourceBit s)), nacc := s.nacc + 1 }.setPhase 10).PhaseOk := by
  obtain ⟨hgeom, hpix⟩ := hs.pix hp
  have hn : s.nacc.toNat < 7 := by
    have := s.nacc.isLt
    have : s.nacc.toNat ≠ 7 := fun h => h7 (BitVec.eq_of_toNat_eq h)
    omega
  have hn' : (s.nacc + 1).toNat = s.nacc.toNat + 1 := BitVec.toNat_add_of_lt (by simp; omega)
  obtain ⟨hkb, hnacc⟩ := hpix.inRow (.inl hx)
  obtain ⟨hx', hsidx'⟩ := hpix.nextPixel_toNat hx
  have hindex := hpix.index
  refine phaseOk_of_pixOk hs hp (sameImage_loops s _ _ _ _ _ _ _) (fun _ _ => rfl) rfl ?_
  constructor <;> simp only [setPhase_x, setPhase_sidx, setPhase_acc, setPhase_nacc, nextPixel_x, nextPixel_sidx, hx', hsidx',
    hn']
  case yBound => exact hpix.yBound
  case xBound => exact hx
  case kbBound => exact hpix.kbBound
  case index => exact (congrArg (· + 1) hindex).trans (Nat.add_assoc _ _ _)
  case address => exact hpix.address
  case inRow => exact fun _ => ⟨show s.kb.toNat = _ by omega, by omega⟩
  case rowEnd => exact fun _ h0 => by rw [h0] at hn'; cases hn'
  case accHeld =>
    intro j hj
    exact hpix.shiftIn_held hx (Nat.le_of_lt_succ hj)
  case accAbove =>
    intro j hj
    rcases Nat.lt_or_ge j 8 with h8 | h8
    · rw [shiftIn_getLsbD _ _ _ h8, if_neg (by omega)]
      exact hpix.accAbove _ (by omega)
    · exact BitVec.getLsbD_of_ge _ _ h8
  case rowsDone => exact hpix.rowsDone
  case rowSoFar => exact hpix.rowSoFar

/-- After K.FLUSH (R106). -/
theorem phaseOk_flushed (hp : s.phase = 10) (hx : s.width.toNat ≤ s.x.toNat) (hn : s.nacc ≠ 0) :
    ((emptyAcc (s.emitByte (s.acc <<< (8 - s.nacc.toNat)))).setPhase 10).PhaseOk := by
  obtain ⟨hgeom, hpix⟩ := hs.pix hp
  have hend : s.x.toNat = s.width.toNat := Nat.le_antisymm hpix.xBound hx
  have hv := hpix.flush_eq_rowbyte hend hn
  have ht := emits_emptyAcc s (s.acc <<< (8 - s.nacc.toNat))
  obtain ⟨hkb, hnacc⟩ := hpix.inRow (.inr hn)
  have hn' : s.nacc.toNat ≠ 0 := fun h => hn (BitVec.eq_of_toNat_eq h)
  obtain ⟨hbpr, hpbpr⟩ := hgeom.bpr_le
  refine phaseOk_of_pixOk hs hp ht.image (fun _ => ht.read_below hpix) rfl
    (pixOk_of_emits hpix hgeom ht (by omega) hv hpix.xBound hpix.index (fun h => ?_) (fun _ => ?_))
  · exact absurd hend h.ne
  · omega

/-- After K.PAD (R107). -/
theorem phaseOk_padded (hp : s.phase = 10) (hx : s.width.toNat ≤ s.x.toNat) (hn : s.nacc = 0)
    (hroom : s.kb.toNat < s.pbpr.toNat) : ((s.emitByte 0).setPhase 10).PhaseOk := by
  obtain ⟨hgeom, hpix⟩ := hs.pix hp
  have hend : s.x.toNat = s.width.toNat := Nat.le_antisymm hpix.xBound hx
  have hrow := hpix.rowEnd hend hn
  have hv : 0 = rowbyte s.body s.width.toNat s.y.toNat s.kb.toNat := by
    rw [rowbyte, if_pos (hgeom.1 ▸ hrow)]
  have ht := emits_emitByte 0 (hpix.acc_eq_zero hn) hn
  refine phaseOk_of_pixOk hs hp ht.image (fun _ => ht.read_below hpix) rfl
    (pixOk_of_emits hpix hgeom ht hroom hv hpix.xBound hpix.index (fun h => ?_) (fun _ => ?_))
  · exact absurd hend h.ne
  · omega

/-- After K.NEXTROW, where a row is left (R108): the row that was completed is the last of those above the new one. -/
theorem phaseOk_row_begun (hp : s.phase = 10) (hx : s.width.toNat ≤ s.x.toNat) (hn : s.nacc = 0)
    (hfull : s.pbpr.toNat ≤ s.kb.toNat) (hmore : s.y + 1 ≠ s.height) :
    ({ s with y := s.y + 1, x := 0, kb := 0 }.setPhase 10).PhaseOk := by
  obtain ⟨-, hpix⟩ := hs.pix hp
  obtain ⟨hindex, haddr, hrows⟩ := hpix.row_complete hx hfull
  obtain ⟨hw, -⟩ := hs.dimensions (by simp [hp])
  have hy := hpix.yBound
  have hy' := y_succ_toNat hy
  have hlast := mt (y_succ_eq_height_iff hy).mpr hmore
  refine phaseOk_of_pixOk hs hp (sameImage_loops s _ _ _ _ _ _ _) (fun _ _ => rfl) rfl ?_
  constructor <;> simp only [setPhase_x, setPhase_y, setPhase_kb, setPhase_nacc, hy', hn]
  case yBound => exact show s.y.toNat + 1 < s.height.toNat by omega
  case xBound => exact Nat.zero_le _
  case kbBound => exact Nat.zero_le _
  case index => exact hindex
  case address => exact haddr
  case inRow => exact fun _ => ⟨rfl, rfl⟩
  case rowEnd => exact fun h0 => absurd (BitVec.eq_of_toNat_eq h0.symm) hw
  case accHeld => exact fun j hj => absurd hj (Nat.not_lt_zero j)
  case accAbove => exact fun j _ => hpix.accAbove j (by simp [hn])
  case rowsDone => exact hrows
  case rowSoFar => exact fun k hk => absurd hk (Nat.not_lt_zero k)

/-- After K.NEXTROW, where no row is left (R108): the pixel data is complete (R130). -/
theorem phaseOk_pixels_complete (hp : s.phase = 10) (hx : s.width.toNat ≤ s.x.toNat) (hn : s.nacc = 0)
    (hfull : s.pbpr.toNat ≤ s.kb.toNat) (hlast : s.y + 1 = s.height) :
    ({ s with y := s.y + 1, x := 0, kb := 0 }.setPhase 11).PhaseOk := by
  obtain ⟨hacc, hgeom, hheader, hpix⟩ := (phaseOk_iff_of_ten hp).mp hs
  obtain ⟨hindex, haddr, hrows⟩ := hpix.row_complete hx hfull
  have ⟨_, hpbpr, _, hfsize⟩ := hgeom
  rw [(y_succ_eq_height_iff hpix.yBound).mp hlast] at hindex haddr hrows
  have hsame : s.SameImage ({ s with y := s.y + 1, x := 0, kb := 0 }.setPhase 11) :=
    sameImage_loops s _ _ _ _ _ _ _
  have hfin : ({ s with y := s.y + 1, x := 0, kb := 0 }.setPhase 11).FinOk := by
    constructor
    case loops => exact ⟨rfl, rfl, hpix.acc_eq_zero hn, hn⟩
    case row => exact hlast
    case index => exact hindex.trans (Nat.mul_comm _ _)
    case address => exact BitVec.eq_of_toNat_eq (haddr.trans (by rw [hpbpr]; exact hfsize.symm))
    case pixels =>
      rw [hpbpr] at hrows
      exact OutHolds_pixeldata hrows
  exact (phaseOk_iff_of_eleven rfl).mpr
    ⟨hacc.congr hsame, hgeom.congr hsame, hheader.congr hsame fun _ _ => rfl, hfin⟩

end

/-! ## The table of register values (R34) -/

section
variable {t : State}

/-- While BUSY no column of the table applies: `ERR` is 0. -/
theorem resultOk_of_busy (hst : t.st = .busy) (herr : t.err = 0) : t.ResultOk := by
  constructor <;> simp [hst, herr]

theorem resultOk_of_idle (hst : t.st = .idle) (herr : t.err = 0) (hheader : t.HeaderUnread) (hcounts : t.Uncounted) :
    t.ResultOk := by
  obtain ⟨hw, hh, hd⟩ := hheader
  constructor
  case idle => exact fun _ => ⟨hw, hh, hd, hcounts⟩
  all_goals simp [hst, herr]

theorem resultOk_of_error_one (hst : t.st = .error) (herr : t.err = 1) (hheader : t.HeaderUnread)
    (hcounts : t.Uncounted) : t.ResultOk := by
  obtain ⟨hw, hh, hd⟩ := hheader
  constructor
  case error1 => exact fun _ => ⟨hw, hh, hd, hcounts⟩
  all_goals simp [hst, herr]

theorem resultOk_of_error_two (hst : t.st = .error) (herr : t.err = 2) (hdim : t.width = 0 ∨ t.height = 0)
    (hcounts : t.Uncounted) : t.ResultOk := by
  constructor
  case error2 => exact fun _ => ⟨hdim, hcounts⟩
  all_goals simp [hst, herr]

section
variable (hst : t.st = .error) (hdim : t.Dimensioned)
  (he : t.expected.toNat = packedByteCount t.width.toNat t.height.toNat)
include hst hdim he

theorem resultOk_of_error_three (herr : t.err = 3) (ha : t.actual < packedByteCount t.width.toNat t.height.toNat) :
    t.ResultOk := by
  obtain ⟨hw, hh⟩ := hdim
  constructor
  case error3 => exact fun _ => ⟨hw, hh, he, ha.trans_eq he.symm⟩
  all_goals simp [hst, herr]

theorem resultOk_of_error_four (herr : t.err = 4) (hd : t.depth ≠ 1)
    (ha : packedByteCount t.width.toNat t.height.toNat ≤ t.actual) : t.ResultOk := by
  obtain ⟨hw, hh⟩ := hdim
  constructor
  case error4 => exact fun _ => ⟨hw, hh, hd, he, he.trans_le ha⟩
  all_goals simp [hst, herr]

end

/-- In DONE the published bytes are an encoded image: its first 62 are the header, and every one of them is there (R148). -/
theorem resultOk_of_done {body : List Byte} (hst : t.st = .done) (herr : t.err = 0) (hdim : t.Dimensioned)
    (hd : t.depth = 1) (he : t.expected.toNat = packedByteCount t.width.toNat t.height.toNat)
    (ha : packedByteCount t.width.toNat t.height.toNat ≤ t.actual)
    (hlen : t.outLen.toNat = fileSize t.width.toNat t.height.toNat)
    (hout : t.OutHolds 0 (encodeImage t.params t.width.toNat t.height.toNat body)) : t.ResultOk := by
  obtain ⟨hw, hh⟩ := hdim
  have hheader : t.OutHolds 0 (header62 t.params t.width.toNat t.height.toNat) := fun i b hb => by
    obtain ⟨hi, -⟩ := List.getElem?_eq_some_iff.mp hb
    exact hout i b ((List.getElem?_append_left hi).trans hb)
  have hvalues : ∀ a, a < fileSize t.width.toNat t.height.toNat → (t.outMem.read a).isSome := fun a ha => by
    rw [← encodeImage_length t.params _ _ body] at ha
    have hread := hout a _ (List.getElem?_eq_getElem ha)
    rw [Nat.zero_add] at hread
    rw [hread, Option.isSome_some]
  constructor
  case done => exact fun _ => ⟨hw, hh, hd, he, he.trans_le ha, hlen, hheader, fun a h => hvalues a (h.trans_eq hlen)⟩
  all_goals simp [hst, herr]

end

/-! ## What the core and a whole transaction establish -/

/-- The header is the first part of the encoded image, the pixel data the second (R120, R125). -/
theorem OutHolds_encodeImage {s : State} (hgeom : s.GeometryOk) (hheader : s.HeaderWritten)
    (hpixels : s.OutHolds 62 (pixeldata s.width.toNat s.height.toNat s.body)) :
    s.OutHolds 0 (encodeImage s.params s.width.toNat s.height.toNat s.body) := by
  obtain ⟨-, -, himg, hfsize⟩ := hgeom
  obtain ⟨hfile, hinfo, htable⟩ := hheader
  rw [hfsize] at hfile
  rw [himg] at hinfo
  have hhead : s.OutHolds 0 (header62 s.params s.width.toNat s.height.toNat) := by
    refine OutHolds_append (OutHolds_append hfile ?_) ?_
    · rwa [fileHeader_length]
    · rwa [List.length_append, fileHeader_length, infoHeader_length]
  refine OutHolds_append hhead ?_
  rwa [header62_length]

section
variable {s : State} (hs : s.PhaseOk)
include hs

/-- After S.FINISH (R130). -/
theorem resultOk_finished (hp : s.phase = 11) (herr : s.err = 0) :
    ({ s with outLen := s.fsize, st := .done, phase := 0 } : State).ResultOk := by
  obtain ⟨⟨-, -, hdim, ⟨hexpected, -, hle⟩, hdepth⟩, hgeom, hheader, hfin⟩ := (phaseOk_iff_of_eleven hp).mp hs
  have ⟨_, _, _, hfsize⟩ := hgeom
  exact resultOk_of_done (body := s.body) rfl herr hdim hdepth hexpected (hexpected ▸ hle) hfsize
    (OutHolds_encodeImage hgeom hheader hfin.pixels)

/-- A core operation of a BUSY block goes on with what its next phase needs, or ends in a column of the table under R34. -/
theorem core_operation_outcome {t : State} {i : Instr} (herr : s.err = 0)
    (hi : decode s.params (coreFetch s) = .ok i) (h : exec i s = .next t) :
    (t.st = s.st ∧ t.PhaseOk) ∨ (t.st ≠ .busy ∧ t.ResultOk) := by
  rcases core_operation_cases hi h with ⟨hp, -, rfl⟩ | ⟨hp, hc, rfl⟩ | ⟨hp, rfl⟩ | ⟨hp, hc, rfl⟩ | ⟨hp, hc, rfl⟩ |
    ⟨hp, hc, rfl⟩ | ⟨hp, hc, rfl⟩ | ⟨hp, hc, rfl⟩ | ⟨hp, hc, rfl⟩ | ⟨hp, rfl⟩ | ⟨hp, rfl⟩ | ⟨hp, rfl⟩ | ⟨hp, rfl⟩ |
    ⟨hp, hx, hn, rfl⟩ | ⟨hp, hx, hn, rfl⟩ | ⟨hp, hx, hn, rfl⟩ | ⟨hp, hx, hn, hk, rfl⟩ | ⟨hp, hx, hn, hk, rfl⟩ | ⟨hp, rfl⟩
  -- the four checks, each rejected and passed, and the latch between them
  · obtain ⟨hheader, hcounts, -⟩ := (phaseOk_iff_of_one hp).mp hs
    exact .inr ⟨nofun, resultOk_of_error_one rfl rfl hheader hcounts⟩
  · exact .inl ⟨by simp, phaseOk_length_checked hs hp hc⟩
  · exact .inl ⟨by simp, phaseOk_latched hs hp⟩
  · obtain ⟨-, -, hcounts, -⟩ := (phaseOk_iff_of_three hp).mp hs
    have hdim : s.width = 0 ∨ s.height = 0 := by simpa [hasBadDimension] using hc
    exact .inr ⟨nofun, resultOk_of_error_two rfl rfl hdim hcounts⟩
  · exact .inl ⟨by simp, phaseOk_dimensions_checked hs hp hc⟩
  · obtain ⟨-, -, hdim, -⟩ := (phaseOk_iff_of_four hp).mp hs
    exact .inr ⟨nofun, resultOk_of_error_three rfl hdim (latchCounts_expected_toNat s) rfl ((isShort_iff s).mp hc)⟩
  · exact .inl ⟨by simp, phaseOk_data_checked hs hp hc⟩
  · obtain ⟨-, -, hdim, ⟨hexpected, -, hle⟩, -⟩ := (phaseOk_iff_of_five hp).mp hs
    have hdepth : s.depth ≠ 1 := by simpa [hasBadDepth] using hc
    exact .inr ⟨nofun, resultOk_of_error_four rfl hdim hexpected rfl hdepth (hexpected ▸ hle)⟩
  · exact .inl ⟨by simp, phaseOk_depth_checked hs hp hc⟩
  -- K.GEOM and stage F
  · exact .inl ⟨by simp, phaseOk_geometry_latched hs hp⟩
  · exact .inl ⟨by simp, phaseOk_fileHeader_written hs hp⟩
  · exact .inl ⟨by simp, phaseOk_infoHeader_written hs hp⟩
  · exact .inl ⟨by simp, phaseOk_palette_written hs hp⟩
  -- phase PIX
  · exact .inl ⟨by simp, phaseOk_byte_shifted hs hp hx hn⟩
  · exact .inl ⟨by simp, phaseOk_bit_shifted hs hp hx hn⟩
  · exact .inl ⟨by simp, phaseOk_flushed hs hp hx hn⟩
  · exact .inl ⟨by simp, phaseOk_padded hs hp hx hn hk⟩
  · split
    · exact .inl ⟨by simp, phaseOk_pixels_complete hs hp hx hn hk ‹_›⟩
    · exact .inl ⟨by simp, phaseOk_row_begun hs hp hx hn hk ‹_›⟩
  -- S.FINISH
  · exact .inr ⟨nofun, resultOk_finished hs hp herr⟩

end

theorem eq_of_whenHostOwns {s u t : State} (hb : s.st ≠ .busy) (h : whenHostOwns s u = .next t) : t = u :=
  (Host.Outcome.next.inj ((whenHostOwns_of_not_busy u hb).symm.trans h)).symm

/-- A whole transaction ends in the column of the table under R34 that its class names (R148, R151 to R154). -/
theorem class_resultOk {s t : State} (hb : s.st ≠ .busy) {word : HeaderWord}
    (h : exec (decodeHeader s.params s.inLen word) s = .next t) : t.ResultOk := by
  rcases decodeHeader_cases s.params s.inLen word with ⟨-, e⟩ | ⟨-, u, w, hh, d, -, -, -, ⟨-, e⟩ | ⟨-, -, e⟩ |
    ⟨hw, hh0, hs, e⟩ | ⟨hw, hh0, hl, hd, e⟩ | ⟨hw, hh0, hl, -, e⟩⟩ <;> rw [e] at h
  · cases eq_of_whenHostOwns hb h
    exact resultOk_of_error_one rfl rfl ⟨rfl, rfl, rfl⟩ ⟨rfl, rfl⟩
  · cases eq_of_whenHostOwns hb h
    exact resultOk_of_error_two rfl rfl (.inl rfl) ⟨rfl, rfl⟩
  · cases eq_of_whenHostOwns hb h
    exact resultOk_of_error_two rfl rfl (.inr rfl) ⟨rfl, rfl⟩
  · cases eq_of_whenHostOwns hb h
    exact resultOk_of_error_three rfl ⟨hw, hh0⟩ (latchCounts_expected_toNat (withHeader w hh d s.begin)) rfl hs
  · cases eq_of_whenHostOwns hb h
    exact resultOk_of_error_four rfl ⟨hw, hh0⟩ (latchCounts_expected_toNat (withHeader w hh d s.begin)) rfl hd hl
  · cases (execTConvert_eq hb u hw hh0).symm.trans h
    obtain ⟨-, -, -, hfsize⟩ := latchGeometry_geometryOk (latchCounts (withHeader w hh 1 s.begin))
    exact resultOk_of_done (body := s.begin.body) rfl rfl ⟨hw, hh0⟩ rfl
      (latchCounts_expected_toNat (withHeader w hh 1 s.begin)) hl hfsize (OutHolds_writeBlock (m := s.outMem) (by simp))

/-! ## The widths (R2) -/

/-- Numbers that do not exceed registers of their width keep the widths. -/
theorem State.WidthsOk.of_le {s t : State} (hs : s.WidthsOk) (hparams : t.params = s.params) (hlen : t.inLen ≤ s.inLen)
    (hactual : t.actual = s.actual ∨ t.actual ≤ s.inLen) (hrdata : t.rdata = s.rdata) : t.WidthsOk := by
  obtain ⟨h1, h2, h3⟩ := hs
  unfold State.WidthsOk
  rw [hparams, hrdata]
  refine ⟨hlen.trans_lt h1, ?_, h3⟩
  rcases hactual with h | h
  · rwa [h]
  · exact h.trans_lt h1

theorem widthsOk_core_operation {s t : State} {i : Instr} (hs : s.WidthsOk) (hi : decode s.params (coreFetch s) = .ok i)
    (h : exec i s = .next t) : t.WidthsOk := by
  obtain ⟨hin, -⟩ := core_operation_buffers hi h
  have hregs : (t.actual = s.actual ∨ t.actual = s.inLen - 4) ∧ t.rdata = s.rdata := by
    rcases core_operation_cases hi h with ⟨-, -, rfl⟩ | ⟨-, -, rfl⟩ | ⟨-, rfl⟩ | ⟨-, -, rfl⟩ | ⟨-, -, rfl⟩ | ⟨-, -, rfl⟩ |
      ⟨-, -, rfl⟩ | ⟨-, -, rfl⟩ | ⟨-, -, rfl⟩ | ⟨-, rfl⟩ | ⟨-, rfl⟩ | ⟨-, rfl⟩ | ⟨-, rfl⟩ | ⟨-, -, -, rfl⟩ |
      ⟨-, -, -, rfl⟩ | ⟨-, -, -, rfl⟩ | ⟨-, -, -, -, rfl⟩ | ⟨-, -, -, -, rfl⟩ | ⟨-, rfl⟩ <;> simp [actualBytes]
  obtain ⟨hactual, hrdata⟩ := hregs
  exact hs.of_le hin.params hin.inLen.le (hactual.imp_right fun h => h.trans_le (Nat.sub_le _ _)) hrdata

theorem widthsOk_class {s t : State} (hs : s.WidthsOk) (hb : s.st ≠ .busy) {p : Params} {n : Nat} {word : HeaderWord}
    (h : exec (decodeHeader p n word) s = .next t) : t.WidthsOk := by
  obtain ⟨hin, -⟩ := class_buffers hb h
  have hregs : t.actual ≤ s.inLen ∧ t.rdata = s.rdata := by
    rcases decodeHeader_cases p n word with ⟨-, e⟩ | ⟨-, u, w, hh, d, -, -, -, ⟨-, e⟩ | ⟨-, -, e⟩ | ⟨-, -, -, e⟩ |
      ⟨-, -, -, -, e⟩ | ⟨hw, hh0, -, -, e⟩⟩ <;> rw [e] at h
    iterate 5 · simp [eq_of_whenHostOwns hb h, actualBytes]
    · have hdone := Host.Outcome.next.inj ((execTConvert_eq hb u hw hh0).symm.trans h)
      simp [← hdone, actualBytes]
  obtain ⟨hactual, hrdata⟩ := hregs
  exact hs.of_le hin.params hin.inLen.le (.inr hactual) hrdata

/-- Every step keeps the widths: a number is kept, cleared, counted from the input's length, or cut to its width (R25). -/
theorem widthsOk_step {s t : State} (hs : s.WidthsOk) (h : step s = .next t) : t.WidthsOk := by
  have hu : (untaken s).WidthsOk := hs
  rcases step_next_cases h with rfl | ⟨-, -, i, hi, hexec⟩ | ⟨-, hb, hexec⟩ | ⟨-, rfl⟩ |
    ⟨-, ⟨a, v, -, rfl⟩ | ⟨n, rfl⟩ | ⟨rfl, -⟩ | rfl⟩ | ⟨v, n, hv, rfl⟩
  · exact hu
  · exact widthsOk_core_operation hu hi hexec
  · exact widthsOk_class (s := untaken s) hu hb hexec
  · exact hu.of_le rfl (Nat.zero_le _) (.inr (Nat.zero_le _)) rfl
  · exact hu.of_le (by simp) (by simp) (.inl (by simp)) (by simp)
  · obtain ⟨-, hactual, hrdata⟩ := hu
    exact ⟨Nat.mod_lt _ (Nat.two_pow_pos _), hactual, hrdata⟩
  · exact hu.of_le rfl le_rfl (.inr (Nat.zero_le _)) rfl
  · exact hu.of_le rfl le_rfl (.inr (Nat.zero_le _)) rfl
  · obtain ⟨hlen, hactual, -⟩ := hu
    exact ⟨hlen, hactual, hv hs⟩

/-! ## Every step keeps the invariant -/

/-- What the outside has of the state (the turns to come, what reads returned) is no part of what a phase has established. -/
theorem phaseOk_outside {s : State} (hs : s.PhaseOk) (ts : List Turn) (v n : Nat) :
    ({ s with turns := ts, rdata := v, draws := n } : State).PhaseOk :=
  { hs with
    pixels := fun hp => { hs.pixels hp with }
    finished := fun hp => { hs.finished hp with } }

/-- The table under R34 says nothing of the input and of what the outside has of the state. -/
theorem resultOk_outside {s : State} (hs : s.ResultOk) (m : Memory) (len : Nat) (ts : List Turn) (v n : Nat) :
    ({ s with inMem := m, inLen := len, turns := ts, rdata := v, draws := n } : State).ResultOk :=
  { hs with }

/-- What a BUSY block has established, and the table of register values, after any step. -/
theorem step_running_results {s t : State} (hs : s.Inv) (h : step s = .next t) :
    (t.st = .busy → t.PhaseOk) ∧ t.ResultOk := by
  obtain ⟨-, -, hcodes, hrunning, hresults⟩ := hs
  have hrunning' : s.st = .busy → (untaken s).PhaseOk := fun hb => phaseOk_outside (hrunning hb) s.turns.tail s.rdata s.draws
  rcases step_next_cases h with rfl | ⟨-, hb, i, hi, hexec⟩ | ⟨-, hb, hexec⟩ | ⟨-, rfl⟩ |
    ⟨hb, ⟨a, v, -, rfl⟩ | ⟨n, rfl⟩ | ⟨rfl, -⟩ | rfl⟩ | ⟨v, n, -, rfl⟩
  · exact ⟨hrunning', resultOk_outside hresults s.inMem s.inLen s.turns.tail s.rdata s.draws⟩
  · obtain ⟨-, -, herr, -⟩ := (codesOk_iff_of_busy hb).mp hcodes
    rcases core_operation_outcome (hrunning' hb) herr hi hexec with ⟨hst, ht⟩ | ⟨hst, ht⟩
    · obtain ⟨-, -, herr', -⟩ := (codesOk_iff_of_busy (hst.trans hb)).mp (stepKeepsCodesCoupled s t hcodes h)
      exact ⟨fun _ => ht, resultOk_of_busy (hst.trans hb) herr'⟩
    · exact ⟨fun hb' => absurd hb' hst, ht⟩
  · have hst : t.st ≠ .busy := by
      rcases class_codes (s := untaken s) hb hexec with ⟨hst, -⟩ | ⟨hst, -⟩ <;> simp [hst]
    exact ⟨fun hb' => absurd hb' hst, class_resultOk (s := untaken s) hb hexec⟩
  · exact ⟨nofun, resultOk_of_idle rfl rfl ⟨rfl, rfl, rfl⟩ ⟨rfl, rfl⟩⟩
  · have hst : ((untaken s).putIn a v).st ≠ .busy := (putIn_st (untaken s) a v).trans_ne hb
    rw [putIn_eq] at hst ⊢
    exact ⟨fun hb' => absurd hb' hst, resultOk_outside hresults _ s.inLen s.turns.tail s.rdata s.draws⟩
  · exact ⟨fun hb' => absurd hb' hb, resultOk_outside hresults s.inMem _ s.turns.tail s.rdata s.draws⟩
  · exact ⟨fun _ => phaseOk_begin _, resultOk_of_busy rfl rfl⟩
  · exact ⟨nofun, resultOk_of_idle rfl rfl ⟨rfl, rfl, rfl⟩ ⟨rfl, rfl⟩⟩
  · exact ⟨fun hb => phaseOk_outside (hrunning hb) s.turns.tail v n,
      resultOk_outside hresults s.inMem s.inLen s.turns.tail v n⟩

/-- Settles O48: the buffers and the codes are kept by themselves, and so are the widths; what a phase has established and the
table of register values need each other at the end of a transaction. -/
theorem stepKeepsInvariant : Obligations.StepKeepsInvariant := fun s t hs h => by
  obtain ⟨hrunning, hresults⟩ := step_running_results hs h
  exact ⟨stepKeepsBuffersCanonical s t hs.buffers h, widthsOk_step hs.widths h, stepKeepsCodesCoupled s t hs.codes h,
    hrunning, hresults⟩

end Sys2Proof.Machine
end

section
/-! PROOFS. 43_container_formatter.md: the operations of stage F and S.FINISH (R127 to R130), the lengths of the output (R121), the
accepted transaction (R148, R149), and that a transaction computes `convert` (R126). -/

namespace Sys2Proof.Machine

/-! ## The output fields as bytes (R7, R8) -/

/-- The four bytes of a number in a 4-byte field, least significant first (R7). -/
theorem le32_ofNat (n : Nat) :
    le32 (BitVec.ofNat 32 n)
      = [BitVec.ofNat 8 n, BitVec.ofNat 8 (n / 2 ^ 8), BitVec.ofNat 8 (n / 2 ^ 16), BitVec.ofNat 8 (n / 2 ^ 24)] := by
  simp only [le32, List.cons.injEq, ← BitVec.toNat_inj, BitVec.extractLsb'_toNat, BitVec.toNat_ofNat,
    Nat.shiftRight_eq_div_pow, and_true]
  omega

/-- A number of 16 bits in a 4-byte field: its two bytes, then zeros (R79). -/
theorem field32_eq {n : Nat} (hn : n < 2 ^ 16) :
    field32 n = [BitVec.ofNat 8 (n % 256), BitVec.ofNat 8 (n / 256), 0, 0] := by
  have h16 : n / 2 ^ 16 = 0 := Nat.div_eq_of_lt hn
  have h24 : n / 2 ^ 24 = 0 := Nat.div_eq_of_lt (hn.trans (by decide))
  rw [field32, le32_ofNat, h16, h24]
  simp [← BitVec.toNat_inj]

/-- A byte in a 4-byte field. -/
theorem field32_toNat (b : Byte) : field32 b.toNat = [b, 0, 0, 0] := by
  have hb := b.isLt
  rw [field32_eq (by omega), Nat.mod_eq_of_lt hb, Nat.div_eq_of_lt hb]
  simp

/-- A negated height from 1 to 255 differs from `-1` in its low byte alone (R8, R128). -/
theorem le32_neg32 {v : Nat} (h0 : v ≠ 0) (hv : v < 256) :
    le32 (neg32 v) = [BitVec.ofNat 8 (256 - v), 0xFF, 0xFF, 0xFF] := by
  have h8 : (2 ^ 32 - v) / 2 ^ 8 = 0xFFFFFF := by omega
  have h16 : (2 ^ 32 - v) / 2 ^ 16 = 0xFFFF := by omega
  have h24 : (2 ^ 32 - v) / 2 ^ 24 = 0xFF := by omega
  have hlow : BitVec.ofNat 8 (2 ^ 32 - v) = BitVec.ofNat 8 (256 - v) := by
    rw [← BitVec.toNat_inj, BitVec.toNat_ofNat, BitVec.toNat_ofNat]; omega
  rw [neg32, le32_ofNat, hlow, h8, h16, h24]
  rfl

/-- The file header of a size that `FSIZE` holds, byte by byte (R122). -/
theorem fileHeader_eq (p : Params) (size : BitVec 14) :
    fileHeader p size.toNat = [p.magic0, p.magic1, BitVec.ofNat 8 (size.toNat % 256), BitVec.ofNat 8 (size.toNat / 256),
      0, 0, 0, 0, 0, 0, 0x3E, 0, 0, 0] := by
  rw [fileHeader, field32_eq (size.isLt.trans (by decide))]
  rfl

/-- The info header of dimensions and an image size that the registers hold, byte by byte (R123). -/
theorem infoHeader_eq {width height : Byte} (hh : height ≠ 0) (image : BitVec 14) :
    infoHeader width.toNat height.toNat image.toNat =
      [0x28, 0, 0, 0, width, 0, 0, 0, BitVec.ofNat 8 (256 - height.toNat), 0xFF, 0xFF, 0xFF,
        1, 0, 1, 0, 0, 0, 0, 0, BitVec.ofNat 8 (image.toNat % 256), BitVec.ofNat 8 (image.toNat / 256), 0, 0,
        0x13, 0x0B, 0, 0, 0x13, 0x0B, 0, 0, 2, 0, 0, 0, 2, 0, 0, 0] := by
  have h0 : height.toNat ≠ 0 := fun h => hh (BitVec.eq_of_toNat_eq h)
  rw [infoHeader, field32_toNat, le32_neg32 h0 height.isLt, field32_eq (image.isLt.trans (by decide))]
  rfl

/-! ## Stage F and S.FINISH (R127 to R130) -/

/-- An operation that writes one block of `OUT` and moves `OADDR` and `PHASE` on: the block is there, no other address changes, and
nothing else of the state does. -/
theorem exec_writes_block {s : State} {i : Instr} {a : Nat} {bytes : List Byte} {o : BitVec 14} {p : BitVec 4}
    (h : exec i s = .next { s with outMem := s.outMem.writeBlock a bytes, oaddr := o, phase := p }) :
    ∃ t, exec i s = .next t ∧ t.OutHolds a bytes
      ∧ (∀ x, x < a ∨ a + bytes.length ≤ x → t.outMem.read x = s.outMem.read x)
      ∧ t = { s with outMem := t.outMem, oaddr := o, phase := p } :=
  ⟨_, h, OutHolds_writeBlock rfl, fun _ => Memory.read_writeBlock_outside _ _ _ _, rfl⟩

/-- Settles O26: the block at address 0 is the file header. -/
theorem fileHeaderBytes : Obligations.FileHeaderBytes := by
  intro s
  obtain ⟨t, hexec, hbytes, houtside, hframe⟩ := exec_writes_block (exec_fFilehdr s)
  rw [fileHeader_eq] at hbytes
  exact ⟨t, hexec, hbytes, fun a ha => houtside a (.inr ha), hframe⟩

/-- Settles O27: the block at address 14 is the info header. -/
theorem infoHeaderBytes : Obligations.InfoHeaderBytes := by
  intro s hh
  obtain ⟨t, hexec, hbytes, houtside, hframe⟩ := exec_writes_block (exec_fInfohdr s)
  rw [infoHeader_eq hh] at hbytes
  exact ⟨t, hexec, hbytes, houtside, hframe⟩

/-- Settles O28: the block at address 54 is the colour table. -/
theorem colourTableBytes : Obligations.ColourTableBytes :=
  fun s => exec_writes_block (exec_fPalette s)

/-- S.FINISH as one record update (R130). -/
theorem exec_sFinish (s : State) : exec .sFinish s = .next { s with outLen := s.fsize, st := .done, phase := 0 } := rfl

/-- Settles O29: the outputs are read off `STATE` (R32). -/
theorem finishPublishesTheResult : Obligations.FinishPublishesTheResult := by
  refine fun s => ⟨exec_sFinish s, fun t h => ?_⟩
  cases (exec_sFinish s).symm.trans h
  exact ⟨rfl, rfl⟩

/-! ## The lengths (R121) -/

/-- Settles O42: the padded row length is a multiple of 4, the one given by the two ceilings, and the rest is arithmetic on it. -/
theorem encodedLength : Obligations.EncodedLength := by
  intro p w h body b q hb hq
  obtain ⟨hbpr, hpadded⟩ := paddedBytesPerRow_of_isCeilDiv hb hq
  have hpixels : (pixeldata w h body).length = q * 4 * h := by rw [pixeldata_length, imageDataSize, hpadded]
  have hall : (encodeImage p w h body).length = 62 + q * 4 * h := by
    rw [encodeImage_length, fileSize, imageDataSize, hpadded]
  rw [paddedBytesPerRow_eq, bytesPerRow_eq] at hpadded
  refine ⟨fileHeader_length _ _, infoHeader_length _ _ _, palette_length, hpixels, hall, fun h1 h2 hh => ?_,
    fun h1 h2 hh => ?_, fun h1 h2 h3 h4 => ?_⟩ <;> rw [hall]
  · subst hh; omega
  · subst hh; omega
  · have hleast : 4 * 1 ≤ q * 4 * h := Nat.mul_le_mul (by omega) h3
    have hgreatest : q * 4 * h ≤ 32 * 255 := Nat.mul_le_mul (by omega) h4
    omega

/-! ## Whole transactions while BUSY, and accesses that cannot be expressed -/

theorem execTConvert_of_busy {s : State} (hb : s.st = .busy) (u : Byte) {w h : Byte} (hw : w ≠ 0) (hh : h ≠ 0) :
    execTConvert u w h s = .next s := by
  rw [execTConvert, if_neg (not_or.mpr ⟨hw, hh⟩)]
  exact whenHostOwns_of_busy _ hb

/-- While BUSY every class of a header is ignored (log entry 10). -/
theorem exec_decodeHeader_of_busy {s : State} (hb : s.st = .busy) (p : Params) (n : Nat) (word : HeaderWord) :
    exec (decodeHeader p n word) s = .next s := by
  rcases decodeHeader_cases p n word with ⟨-, e⟩ | ⟨-, u, w, h, d, -, -, -, ⟨-, e⟩ | ⟨-, -, e⟩ | ⟨-, -, -, e⟩ |
    ⟨-, -, -, -, e⟩ | ⟨hw, hh, -, -, e⟩⟩ <;> rw [e]
  iterate 5 · exact whenHostOwns_of_busy _ hb
  · exact execTConvert_of_busy hb u hw hh

/-- A turn whose word cannot be expressed is passed over (R141, log entry 28). -/
theorem runFetch_notExpressible {f : Fetch} {s : State} {n : Nat} (h : decode s.params f = .error (.notExpressible n)) :
    runFetch f s = .next s := runFetch_of_error s h

/-- H.WRIN at an address that `IN` does not have changes nothing (log entry 28). -/
theorem exec_hWrin_of_le {s : State} {n : Nat} (hn : 2 ^ s.params.inAddrBits ≤ n) (v : Byte) :
    exec (.hWrin n v) s = .next s := by
  have hput : s.putIn n v = s := if_neg (Nat.not_lt.mpr hn)
  rcases whenHostOwns_eq s (s.putIn n v) with ⟨-, h⟩ | ⟨-, h⟩
  · exact h.trans (congrArg _ hput)
  · exact h

/-- A read-back at an address that `IN` does not have changes nothing (log entry 28). -/
theorem hostReadBack_of_le {s : State} {n : Nat} (hn : 2 ^ s.params.inAddrBits ≤ n) : hostReadBack n s = s :=
  if_neg (Nat.not_lt.mpr hn)

/-- Settles O40: the three choices, each from the lemma that says it. -/
theorem transactionsWhileBusyAndOutsideTheDomain : Obligations.TransactionsWhileBusyAndOutsideTheDomain := by
  refine ⟨fun s i p n word hb hi => ?_, fun s u w h hzero => if_pos hzero,
    fun s ts n v r => ⟨fun hn => ⟨exec_hWrin_of_le hn v, ?_, ?_⟩, fun hn => ?_, fun hn => ?_⟩⟩
  · cases hi
    exact exec_decodeHeader_of_busy hb p n word
  · exact runFetch_notExpressible (f := .inwr n v) (s := { s with turns := ts }) (fits_of_le _ hn)
  · exact congrArg Host.Outcome.next (hostReadBack_of_le (s := { s with turns := ts }) hn)
  · exact runFetch_notExpressible (f := .outrd n) (s := { s with turns := ts }) (fits_of_le _ hn)
  · exact runFetch_notExpressible (f := .regwr r n) (s := { s with turns := ts }) (fits_of_le _ hn)

/-! ## The accepted transaction (R148, R149) -/

/-- The pixel index at the end of a run fits `SIDX` (R19). -/
theorem endOfPixels_sidx_toNat (s : State) : (endOfPixels s).sidx.toNat = s.width.toNat * s.height.toNat := by
  have hpixels := mul_byte_le s.width s.height
  rw [endOfPixels_sidx, BitVec.toNat_ofNat, Nat.mod_eq_of_lt (by omega)]

/-- Settles O39: T.CONVERT is one record update; the counts, the geometry and the pixel index fit their registers, and the block it
writes is the image, which ends at `OUT_LEN`. -/
theorem convertTransaction : Obligations.ConvertTransaction := by
  intro s u w h hb _ hw hh
  have hgeom := latchGeometry_geometryOk (latchCounts (withHeader w h 1 s.begin))
  have ⟨_, _, _, hfsize⟩ := hgeom
  have hrun := execTConvert_eq hb u hw hh
  have hlen := encodeImage_length s.params w.toNat h.toNat s.begin.body
  generalize encodeImage s.params w.toNat h.toNat s.begin.body = bytes at hrun hlen ⊢
  refine ⟨_, hrun, rfl, rfl, rfl, rfl, rfl, rfl, latchCounts_expected_toNat (withHeader w h 1 s.begin), rfl, hfsize, hgeom,
    OutHolds_writeBlock rfl, fun a ha => Memory.read_writeBlock_outside s.outMem _ _ _ (.inr ?_), rfl, rfl, rfl,
    endOfPixels_sidx_toNat (latchGeometry (latchCounts (withHeader w h 1 s.begin))), rfl, rfl, rfl, rfl, rfl, rfl, rfl, rfl,
    rfl, rfl, rfl⟩
  rw [hlen, Nat.zero_add]
  exact hfsize.symm.trans_le ha

/-! ## A transaction computes `convert` (R126) -/

/-- How a transaction from `s` on the input `buf` ends in `t` when `convert` answers `answer`: accepted with its bytes in `OUT`, or
rejected with its code and its counts, and `OUT` left alone (R148, R157). -/
def State.EndsAs (s : State) (buf : List Byte) (t : State) : Except Rejection (List Byte) → Prop
  | .ok bytes =>
    t.st = .done ∧ t.err = 0 ∧ t.outLen.toNat = bytes.length ∧ t.OutHolds 0 bytes
      ∧ buf[1]? = some t.width ∧ buf[2]? = some t.height ∧ t.depth = 1
      ∧ t.expected.toNat = packedByteCount t.width.toNat t.height.toNat ∧ t.actual = buf.length - 4
  | .error r =>
    t.st = .error ∧ t.err = r.code ∧ t.outLen = 0 ∧ t.outMem = s.outMem
      ∧ ∀ e a, r = .insufficientBitmapData e a → t.expected.toNat = e ∧ t.actual = a

/-- An input above the length threshold has a whole header: both admissible thresholds are at least 3 (R2). -/
theorem exists_header_of_lt_length {p : Params} {buf : List Byte} (hn : p.tooSmallMax.toNat < buf.length) :
    ∃ u w h d body, buf = u :: w :: h :: d :: body := by
  have hfour : 4 ≤ buf.length := (three_le_tooSmallMax p.tooSmallMax).trans_lt hn
  match buf, hfour with
  | u :: w :: h :: d :: body, _ => exact ⟨u, w, h, d, body, rfl⟩
  | [], hfour | [_], hfour | [_, _], hfour | [_, _, _], hfour => simp at hfour

/-- The header that the transaction reads is the one the host has written, but for byte 0 (R82, R174). -/
theorem headerWord_of_inputWritten {s : State} {u w h d : Byte} {body : List Byte}
    (hs : s.InputWritten (u :: w :: h :: d :: body)) : headerWord s = headerWordOf (inByte s 0) w h d := by
  have hbyte : ∀ a b, 1 ≤ a → a < 8133 → (u :: w :: h :: d :: body)[a]? = some b → inByte s a = b := fun a b h1 h2 hb => by
    obtain ⟨ha, rfl⟩ := List.getElem?_eq_some_iff.mp hb
    exact inByte_of_inputWritten hs h1 h2 ha
  rw [headerWord, hbyte 1 w (by decide) (by decide) rfl, hbyte 2 h (by decide) (by decide) rfl,
    hbyte 3 d (by decide) (by decide) rfl]

/-- The image that the core encodes is the one of the written body: no byte that a header can demand is missing (R3, R42). -/
theorem encodeImage_body_of_inputWritten {s : State} {u w h d : Byte} {body : List Byte}
    (hs : s.InputWritten (u :: w :: h :: d :: body)) (p : Params) (width height : Byte) :
    encodeImage p width.toNat height.toNat s.body = encodeImage p width.toNat height.toNat body := by
  refine encodeImage_congr (fun i hi => srcbit_congr ?_) p
  have hk : i >>> 3 < 8129 := (shiftRight_three_lt_packedByteCount hi).trans_le (packedByteCount_le width height)
  rw [body_getElem?_of_inputWritten hs hk, Nat.add_comm]
  rfl

/-- Reject with the code of a rejection, after H.START and latches that leave `OUT_LEN` and `OUT` alone (R156, R157). -/
theorem endsAs_reject {s v : State} {buf : List Byte} {r : Rejection} (hlen : v.outLen = 0) (hout : v.outMem = s.outMem)
    (hcounts : ∀ e a, r = .insufficientBitmapData e a → v.expected.toNat = e ∧ v.actual = a) :
    s.EndsAs buf (v.reject r.code) (.error r) :=
  ⟨rfl, rfl, hlen, hout, hcounts⟩

section
variable {s : State} (hb : s.st ≠ .busy)
include hb

/-- A transaction class that rejects, performed by a block that is not BUSY. -/
theorem whenHostOwns_reject_endsAs {v : State} {buf : List Byte} {r : Rejection} (hlen : v.outLen = 0)
    (hout : v.outMem = s.outMem)
    (hcounts : ∀ e a, r = .insufficientBitmapData e a → v.expected.toNat = e ∧ v.actual = a) :
    ∃ t, whenHostOwns s (v.reject r.code) = .next t ∧ s.EndsAs buf t (.error r) :=
  ⟨_, whenHostOwns_of_not_busy _ hb, endsAs_reject hlen hout hcounts⟩

variable {u w h d : Byte} {body : List Byte} (hs : s.InputWritten (u :: w :: h :: d :: body))
include hs

/-- T.CONVERT ends as an accepted transaction with the image of the written body (R148). -/
theorem execTConvert_endsAs (u' : Byte) (hw : w ≠ 0) (hh : h ≠ 0) :
    ∃ t, exec (.tConvert u' w h) s = .next t
      ∧ s.EndsAs (u :: w :: h :: d :: body) t (.ok (encodeImage s.params w.toNat h.toNat body)) := by
  have hfour : 4 ≤ s.inLen := by rw [← hs.1]; simp
  obtain ⟨t, hexec, hst, herr, -, hwidth, hheight, hdepth, hexpected, hactual, houtLen, -, hout, -⟩ :=
    convertTransaction s u' w h hb hfour hw hh
  rw [encodeImage_body_of_inputWritten (s := s.begin) hs] at hout
  refine ⟨t, hexec, hst, herr, ?_, hout, ?_, ?_, hdepth, ?_, ?_⟩
  · rw [houtLen, encodeImage_length]
  · rw [hwidth]; rfl
  · rw [hheight]; rfl
  · rw [hexpected, hwidth, hheight]
  · rw [hactual, hs.1]

/-- Past the length check, the class of the header and `parse` branch on the same conditions, and each class ends as its branch
says (R72, R80). -/
theorem exec_class_endsAs (hn : s.params.tooSmallMax.toNat < s.inLen) (u' : Byte) :
    ∃ t, exec (decodeHeader s.params s.inLen (headerWordOf u' w h d)) s = .next t
      ∧ s.EndsAs (u :: w :: h :: d :: body) t (convert s.params (u :: w :: h :: d :: body)) := by
  have hlen : s.inLen = body.length + 4 := hs.1.symm
  have hbody : s.inLen - 4 = body.length := by omega
  rw [decodeHeader_headerWordOf hn, convert, parse_header (hlen ▸ hn), hbody]
  by_cases hw : w = 0
  · rw [if_pos hw, if_pos (.inl hw)]
    exact whenHostOwns_reject_endsAs (r := .invalidDimensions) hb rfl rfl nofun
  by_cases hh : h = 0
  · rw [if_neg hw, if_pos hh, if_pos (.inr hh)]
    exact whenHostOwns_reject_endsAs (r := .invalidDimensions) hb rfl rfl nofun
  rw [if_neg hw, if_neg hh, if_neg (not_or.mpr ⟨hw, hh⟩)]
  by_cases hshort : body.length < packedByteCount w.toNat h.toNat
  · rw [if_pos hshort, if_pos hshort]
    refine whenHostOwns_reject_endsAs (v := latchCounts (withHeader w h d s.begin))
      (r := .insufficientBitmapData _ _) hb rfl rfl fun e a hr => ?_
    cases hr
    exact ⟨latchCounts_expected_toNat (withHeader w h d s.begin), hbody⟩
  rw [if_neg hshort, if_neg hshort]
  by_cases hd : d = 1
  · rw [if_neg (not_not.mpr hd), if_neg (not_not.mpr hd)]
    exact execTConvert_endsAs hb hs u' hw hh
  · rw [if_pos hd, if_pos hd]
    exact whenHostOwns_reject_endsAs (r := .unsupportedColorDepth) hb rfl rfl nofun

end

/-- A whole transaction of a block that is not BUSY ends as `convert` of the written input says. -/
theorem transaction_endsAs {s : State} {buf : List Byte} (hb : s.st ≠ .busy) (hs : s.InputWritten buf) :
    ∃ t, takeTurn .convert s = .next t ∧ s.EndsAs buf t (convert s.params buf) := by
  rw [takeTurn_convert]
  rcases Nat.lt_or_ge s.params.tooSmallMax.toNat s.inLen with hn | hn
  · obtain ⟨u, w, h, d, body, rfl⟩ := exists_header_of_lt_length (hn.trans_eq hs.1.symm)
    rw [headerWord_of_inputWritten (s := s.begin) hs]
    exact exec_class_endsAs hb hs hn _
  · rw [decodeHeader_of_le _ hn, convert, parse_of_length_le (hs.1.trans_le hn)]
    exact whenHostOwns_reject_endsAs (r := .tooSmall) hb rfl rfl nofun

/-- Settles O55: the step is the transaction turn, taken off the list, and `EndsAs` says both of its outcomes. -/
theorem transactionComputesConvert : Obligations.TransactionComputesConvert := by
  intro s buf hb hs
  obtain ⟨t, hstep, hends⟩ := transaction_endsAs (s := { s with turns := [] }) hb hs
  refine ⟨t, hstep, fun bytes hok => ?_, fun r herr => ?_⟩
  · rw [hok] at hends
    exact hends
  · rw [herr] at hends
    exact hends

end Sys2Proof.Machine
end

section
/-! PROOFS. 44_sequencer_and_host.md: the host commands (R141 to R147), the table of phase changes (R136), the end of a run (R149),
host accesses while BUSY (R139), and that the core's own steps reach the result of the whole transaction (R148, R182). -/

namespace Sys2Proof.Machine

/-! ## The host commands (R141 to R144) -/

/-- A length written to register 3 takes the low bits of the data word (R25, R142). -/
theorem step_lengthWrite (s : State) (ts : List Turn) {d : Nat} (hd : d < 2 ^ s.params.dataBits) :
    step { s with turns := .regWrite 3 d :: ts } = exec (.hWrlen (d % 2 ^ s.params.lenBits)) { s with turns := ts } := by
  have hi : decode s.params (.regwr 3 d) = .ok (.hWrlen (d % 2 ^ s.params.lenBits)) := fits_of_lt _ hd
  exact runFetch_of_ok { s with turns := ts } hi

/-- A number that is cut to `LEN_BITS` bits already is written to `IN_LEN` as it is. -/
theorem putLength_of_lt {s : State} {n : Nat} (hn : n < 2 ^ s.params.lenBits) : s.putLength n = { s with inLen := n } := by
  rw [State.putLength, Nat.mod_eq_of_lt hn]

theorem exec_hWrlen_of_lt {s : State} (hb : s.st ≠ .busy) {n : Nat} (hn : n < 2 ^ s.params.lenBits) :
    exec (.hWrlen n) s = .next { s with inLen := n } :=
  (whenHostOwns_of_not_busy _ hb).trans (congrArg _ (putLength_of_lt hn))

/-- Settles O30: a host that owns the block stores the byte at its address alone, and `IN_LEN` takes the low bits. -/
theorem hostWritesInputAndLength : Obligations.HostWritesInputAndLength := by
  intro s ts a n d v ha hn hd
  have hlow : d % 2 ^ s.params.lenBits < 2 ^ s.params.lenBits := Nat.mod_lt _ (Nat.two_pow_pos _)
  refine ⟨fun hb => ⟨_, whenHostOwns_of_not_busy _ hb, ?_, fun b hne => ?_, putIn_eq s a v⟩,
    fun hb => exec_hWrlen_of_lt hb hn, fun hb => ⟨whenHostOwns_of_busy _ hb, whenHostOwns_of_busy _ hb⟩,
    fun hb => ?_, fun hb => ?_⟩
  · rw [putIn_read, if_pos ⟨rfl, ha⟩]
  · rw [putIn_read, if_neg fun h => hne h.1]
  · rw [step_lengthWrite s ts hd]
    exact exec_hWrlen_of_lt (s := { s with turns := ts }) hb hlow
  · rw [step_lengthWrite s ts hd]
    exact whenHostOwns_of_busy (s := { s with turns := ts }) _ hb

/-- Settles O31: H.START performed is `State.begin`. -/
theorem startBeginsATransaction : Obligations.StartBeginsATransaction := fun _ =>
  ⟨whenHostOwns_of_not_busy _, whenHostOwns_of_busy _⟩

/-- Settles O32: H.CLEAR performed is `State.toIdle`. -/
theorem clearReturnsToIdle : Obligations.ClearReturnsToIdle := fun _ =>
  ⟨whenHostOwns_of_not_busy _, whenHostOwns_of_busy _⟩

/-! ## Host reads (R145, R146) -/

section
variable {s : State} {r : RegNum} {a : Nat}

theorem exec_hRdreg_of_some {v : Nat} (h : readReg s r = some v) : exec (.hRdreg r) s = .next { s with rdata := v } :=
  congrArg (Host.Outcome.next ∘ s.answerReg) h

theorem exec_hRdreg_of_none (h : readReg s r = none) : exec (.hRdreg r) s = .next
    { s with rdata := (Config.regDraw s.params.dataBits s.draws).toNat, draws := s.draws + 1 } :=
  congrArg (Host.Outcome.next ∘ s.answerReg) h

theorem exec_hRdout_of_some {b : Byte} (h : readOut s a = some b) :
    exec (.hRdout a) s = .next { s with rdata := b.toNat } :=
  congrArg (Host.Outcome.next ∘ s.answerByte) h

theorem exec_hRdout_of_none (h : readOut s a = none) : exec (.hRdout a) s = .next
    { s with rdata := (Config.byteDraw s.draws).toNat, draws := s.draws + 1 } :=
  congrArg (Host.Outcome.next ∘ s.answerByte) h

end

theorem hostOwns_iff (s : State) : hostOwns s = true ↔ s.st ≠ .busy := by simp [hostOwns]

/-- `STATUS` as a number: the two fields do not overlap (R27). -/
theorem statusWord_toNat (s : State) : (statusWord s).toNat = s.phase.toNat * 16 + s.st.code.toNat := by
  have hphase := s.phase.isLt
  have hcode : s.st.code.toNat < 2 ^ 4 := s.st.code.isLt.trans (by decide)
  have hshift : s.phase.toNat <<< 4 % 2 ^ 32 = s.phase.toNat <<< 4 := by rw [Nat.shiftLeft_eq]; omega
  rw [statusWord, BitVec.toNat_or, BitVec.toNat_shiftLeft, BitVec.toNat_setWidth_of_le (by decide),
    BitVec.toNat_setWidth_of_le (by decide), hshift, ← Nat.shiftLeft_add_eq_or_of_lt hcode, Nat.shiftLeft_eq]

/-- Registers 2 to 9 by number. -/
theorem resultRegister_cases {r : RegNum} (h2 : 2 ≤ r.toNat) (h9 : r.toNat ≤ 9) :
    r = 2 ∨ r = 3 ∨ r = 4 ∨ r = 5 ∨ r = 6 ∨ r = 7 ∨ r = 8 ∨ r = 9 := by
  bv_omega

theorem readReg_of_busy {s : State} {r : RegNum} (h2 : 2 ≤ r.toNat) (h9 : r.toNat ≤ 9) (hb : s.st = .busy) :
    readReg s r = none := by
  have howns : hostOwns s = false := by simp [hostOwns, hb]
  rcases resultRegister_cases h2 h9 with rfl | rfl | rfl | rfl | rfl | rfl | rfl | rfl <;> simp [readReg, howns]

theorem readReg_zero {s : State} {r : RegNum} (h : r = 0 ∨ 10 ≤ r.toNat) : readReg s r = some 0 := by
  have h1 : r ≠ 1 := by
    rintro rfl
    simp at h
  rw [readReg, if_neg h1, if_pos h]

/-- Settles O33: a read leaves what the register number reads as in `rdata`, or a free value. -/
theorem registerReads : Obligations.RegisterReads := by
  intro s r
  refine ⟨fun h => ?_, fun h => ?_, fun h2 h9 hb => ?_, fun h2 h9 hb => ?_⟩
  · exact exec_hRdreg_of_some (by rw [readReg, if_pos h, statusWord_toNat])
  · exact exec_hRdreg_of_some (readReg_zero h)
  · have howns := (hostOwns_iff s).mpr hb
    rcases resultRegister_cases h2 h9 with rfl | rfl | rfl | rfl | rfl | rfl | rfl | rfl
    · exact ⟨s.err.toNat, exec_hRdreg_of_some (by simp [readReg, howns]), by simp⟩
    · exact ⟨s.inLen, exec_hRdreg_of_some (by simp [readReg, howns]), by simp⟩
    · exact ⟨s.width.toNat, exec_hRdreg_of_some (by simp [readReg, howns]), by simp⟩
    · exact ⟨s.height.toNat, exec_hRdreg_of_some (by simp [readReg, howns]), by simp⟩
    · exact ⟨s.depth.toNat, exec_hRdreg_of_some (by simp [readReg, howns]), by simp⟩
    · exact ⟨s.expected.toNat, exec_hRdreg_of_some (by simp [readReg, howns]), by simp⟩
    · exact ⟨s.actual, exec_hRdreg_of_some (by simp [readReg, howns]), by simp⟩
    · exact ⟨s.outLen.toNat, exec_hRdreg_of_some (by simp [readReg, howns]), by simp⟩
  · exact ⟨_, (Config.regDraw s.params.dataBits s.draws).isLt, exec_hRdreg_of_none (readReg_of_busy h2 h9 hb)⟩

theorem readOut_of_written {s : State} {a : Nat} {b : Byte} (hst : s.st = .done) (ha : a < s.outLen.toNat)
    (hread : s.outMem.read a = some b) : readOut s a = some b := by
  rw [readOut, if_pos ⟨hst, ha⟩, hread]

theorem readOut_eq_none {s : State} {a : Nat} (h : s.st ≠ .done ∨ s.outLen.toNat ≤ a ∨ s.outMem.read a = none) :
    readOut s a = none := by
  rw [readOut]
  split_ifs with hdone
  · exact (h.resolve_left (not_not.mpr hdone.1)).resolve_left (Nat.not_le.mpr hdone.2)
  · rfl

/-- Settles O34: by whether the location has architectural value. -/
theorem outputReads : Obligations.OutputReads := by
  refine fun s a _ => ⟨fun b hst ha hread => ?_, fun h => ⟨_, (Config.byteDraw s.draws).isLt, ?_⟩⟩
  · exact exec_hRdout_of_some (readOut_of_written hst ha hread)
  · exact exec_hRdout_of_none (readOut_eq_none h)

/-! ## Host accesses (R147) -/

/-- Every host access answers a next state (R147). -/
theorem exists_step_hostAccess (s : State) {t : Turn} (ts : List Turn) (ht : t.isHostAccess = true) :
    ∃ u, step { s with turns := t :: ts } = .next u := by
  change ∃ u, takeTurn t { s with turns := ts } = .next u
  cases t with
  | core | convert | reset => cases ht
  | inRead a => exact ⟨_, rfl⟩
  | regRead r => exact ⟨_, rfl⟩
  | inWrite a v =>
    rcases runFetch_cases (.inwr a v) nofun { s with turns := ts } with ⟨i, hi, hrun⟩ | ⟨_, _, hrun⟩
    · cases (fits_ok hi).2
      exact ⟨_, hrun⟩
    · exact ⟨_, hrun⟩
  | regWrite r d =>
    rcases runFetch_cases (.regwr r d) nofun { s with turns := ts } with ⟨i, hi, hrun⟩ | ⟨_, _, hrun⟩
    · rcases decodeRegWrite_ok (fits_ok hi).2 with ⟨-, -, rfl⟩ | ⟨-, -, -, rfl⟩ | ⟨-, rfl⟩ <;> exact ⟨_, hrun⟩
    · exact ⟨_, hrun⟩
  | outRead a =>
    rcases runFetch_cases (.outrd a) nofun { s with turns := ts } with ⟨i, hi, hrun⟩ | ⟨_, _, hrun⟩
    · cases (fits_ok hi).2
      exact ⟨_, hrun⟩
    · exact ⟨_, hrun⟩

/-- Settles O10: of the kinds of step, a host access is none of the core's, a transaction or reset; the others leave `OUT` alone, and
while BUSY only what a read returned changes. -/
theorem hostAccessNeverDisturbsTheBlock : Obligations.HostAccessNeverDisturbsTheBlock := by
  intro s t ts ht
  obtain ⟨u, hu⟩ := exists_step_hostAccess s ts ht
  refine ⟨u, hu, ?_⟩
  rcases step_next_cases hu with rfl | ⟨hturn | hturn, -⟩ | ⟨hturn, -⟩ | ⟨hturn, -⟩ |
    ⟨hb, ⟨a, v, -, rfl⟩ | ⟨n, rfl⟩ | ⟨rfl, -⟩ | rfl⟩ | ⟨v, n, -, rfl⟩
  · exact ⟨rfl, rfl, rfl, fun _ => rfl⟩
  · cases hturn
  · cases hturn; cases ht
  · cases hturn; cases ht
  · cases hturn; cases ht
  · exact ⟨putIn_turns _ a v, putIn_outMem _ a v, putIn_params _ a v, fun hbusy => absurd hbusy hb⟩
  · exact ⟨rfl, rfl, rfl, fun hbusy => absurd hbusy hb⟩
  · exact ⟨rfl, rfl, rfl, fun hbusy => absurd hbusy hb⟩
  · exact ⟨rfl, rfl, rfl, fun hbusy => absurd hbusy hb⟩
  · exact ⟨rfl, rfl, rfl, fun _ => rfl⟩

/-! ## The table of phase changes (R136) -/

/-- Settles O51: by the kinds of step; H.CLEAR finds `PHASE` 0 already, and every other host access leaves it alone. -/
theorem phaseChangesFollowTheTable : Obligations.PhaseChangesFollowTheTable := by
  intro s t hcodes h hconvert hphase
  rcases step_next_cases h with rfl | ⟨hturn, hb, i, hi, hexec⟩ | ⟨hturn, -⟩ | ⟨hturn, rfl⟩ |
    ⟨hb, ⟨a, v, -, rfl⟩ | ⟨n, rfl⟩ | ⟨rfl, hstart⟩ | rfl⟩ | ⟨v, n, -, rfl⟩
  · exact absurd rfl hphase
  · refine .inr (.inl ⟨hturn, hb, ?_⟩)
    rcases core_operation_codes hi hexec with ⟨hle, hnext, hst, -⟩ | ⟨hcode, hst, hp, -⟩ | ⟨hlast, hst, hp, -⟩
    · exact .inl ⟨hst.trans hb, hle, hnext.resolve_left hphase⟩
    · exact .inr (.inl ⟨hst, hp, hcode⟩)
    · exact .inr (.inr ⟨hlast, hst, hp⟩)
  · exact absurd hturn hconvert
  · exact .inr (.inr ⟨hturn, rfl, rfl⟩)
  · exact absurd (putIn_phase _ a v) hphase
  · exact absurd rfl hphase
  · exact .inl ⟨hb, rfl, rfl, hstart⟩
  · obtain ⟨-, hbusy, -⟩ := hcodes
    exact absurd (not_not.mp (mt hbusy.mpr hb)).symm hphase
  · exact absurd rfl hphase

/-! ## The end of a run (R149) -/

/-- With no turn left, the core takes its enabled operation while BUSY. -/
theorem step_of_no_turns {s : State} (hturns : s.turns = []) : step s = coreTurn s := by
  rw [step, hturns]

theorem step_of_not_busy {s : State} (hb : s.st ≠ .busy) (hturns : s.turns = []) : step s = .next s :=
  (step_of_no_turns hturns).trans (if_neg hb)

/-- Settles O8: by induction on the number of steps. -/
theorem endOfRunIsStable : Obligations.EndOfRunIsStable := by
  intro s k hb hturns
  induction k with
  | zero => rfl
  | succ k ih => rw [runSteps_succ (step_of_not_busy hb hturns), ih]

/-! ## Host accesses while BUSY (R139) -/

/-- `s` with what the outside has of the state put in: the turns to come, what the last read returned, the count of free values. -/
def State.withOutside (s : State) (ts : List Turn) (v n : Nat) : State := { s with turns := ts, rdata := v, draws := n }

/-- Two states with the same block differ in what the outside has of them alone. -/
theorem eq_withOutside_of_block_eq {s v : State} (h : v.block = s.block) : v = s.withOutside v.turns v.rdata v.draws := by
  cases s; cases v
  simpa [State.block, State.withOutside] using h

@[simp] theorem withOutside_block (s : State) (ts : List Turn) (v n : Nat) : (s.withOutside ts v n).block = s.block := rfl

section
variable {s u : State} {i : Instr} (h : exec i s = .next u) (ts : List Turn) (v n : Nat)
include h

/-- The operations of phase PIX neither read nor change what the outside has of the state. -/
theorem exec_decodePix_withOutside {c : LoopCounters} (hi : i = decodePix c) :
    exec i (s.withOutside ts v n) = .next (u.withOutside ts v n) := by
  rcases decodePix_cases c with ⟨-, e⟩ | ⟨-, -, e⟩ | ⟨-, -, -, e⟩ | ⟨-, -, -, e⟩ <;> obtain rfl := hi.trans e
  · rcases eq_or_ne s.nacc 7 with h7 | h7
    · cases (exec_kShift_of_seven h7).symm.trans h
      exact exec_kShift_of_seven (s := s.withOutside ts v n) h7
    · cases (exec_kShift_of_ne_seven h7).symm.trans h
      exact exec_kShift_of_ne_seven (s := s.withOutside ts v n) h7
  · cases (exec_kFlush s).symm.trans h
    exact exec_kFlush (s.withOutside ts v n)
  · cases h; rfl
  · cases h; rfl

/-- A core operation neither reads nor changes what the outside has of the state. -/
theorem exec_core_withOutside (hi : decode s.params (coreFetch s) = .ok i) :
    exec i (s.withOutside ts v n) = .next (u.withOutside ts v n) := by
  rcases decodePhase_ok hi with ⟨-, rfl⟩ | ⟨-, rfl⟩ | ⟨-, rfl⟩ | ⟨-, rfl⟩ | ⟨-, rfl⟩ | ⟨-, rfl⟩ | ⟨-, rfl⟩ | ⟨-, rfl⟩ |
    ⟨-, rfl⟩ | ⟨-, hpix⟩ | ⟨-, rfl⟩
  -- stage P: the four checks, each on its condition, and the latch
  · cases h
    exact congrArg _ (apply_ite (State.withOutside · ts v n) (isTooSmall s = true) (s.reject 1) (s.setPhase 2)).symm
  · cases h; rfl
  · cases h
    exact congrArg _ (apply_ite (State.withOutside · ts v n) (hasBadDimension s = true) (s.reject 2) (s.setPhase 4)).symm
  · cases h
    exact congrArg _ (apply_ite (State.withOutside · ts v n) (isShort s = true) ((latchCounts s).reject 3)
      ((latchCounts s).setPhase 5)).symm
  · cases h
    exact congrArg _ (apply_ite (State.withOutside · ts v n) (hasBadDepth s = true) (s.reject 4) (s.setPhase 6)).symm
  -- K.GEOM and stage F
  · cases h; rfl
  · cases (exec_fFilehdr s).symm.trans h
    simp only [exec_fFilehdr, State.withOutside]
  · cases (exec_fInfohdr s).symm.trans h
    simp only [exec_fInfohdr, State.withOutside]
  · cases (exec_fPalette s).symm.trans h
    simp only [exec_fPalette, State.withOutside]
  -- phase PIX and S.FINISH
  · exact exec_decodePix_withOutside h ts v n hpix
  · cases h; rfl

end

theorem coreTurn_withOutside {s u : State} (h : coreTurn s = .next u) (ts : List Turn) (v n : Nat) :
    coreTurn (s.withOutside ts v n) = .next (u.withOutside ts v n) := by
  rcases coreTurn_next h with ⟨hb, rfl⟩ | ⟨hb, i, hi, hexec⟩
  · exact if_neg hb
  · exact (if_pos hb).trans ((runFetch_of_ok (s.withOutside ts v n) hi).trans (exec_core_withOutside hexec ts v n hi))

/-- A core turn places no turns and takes none off the list. -/
theorem coreTurn_turns {s u : State} (h : coreTurn s = .next u) : u.turns = s.turns := by
  have hsame : coreTurn s = .next (u.withOutside s.turns s.rdata s.draws) := coreTurn_withOutside h s.turns s.rdata s.draws
  have heq : u = u.withOutside s.turns s.rdata s.draws := Host.Outcome.next.inj (h.symm.trans hsame)
  rw [heq]
  rfl

/-- A core turn does to the block what the core does with no turn left. -/
theorem step_core_of_block_eq {s t v : State} (hs : s.turns = []) (h : step s = .next t) (hv : v.block = s.block)
    {ts : List Turn} (hturns : v.turns = .core :: ts) :
    ∃ w, step v = .next w ∧ w.block = t.block ∧ w.turns = ts := by
  have hcore : coreTurn s = .next t := (step_of_no_turns hs).symm.trans h
  have hv' : { v with turns := ts } = s.withOutside ts v.rdata v.draws := by
    rw [eq_withOutside_of_block_eq hv]
    rfl
  refine ⟨_, ?_, withOutside_block t ts v.rdata v.draws, rfl⟩
  rw [step, hturns]
  exact (congrArg coreTurn hv').trans (coreTurn_withOutside hcore ts v.rdata v.draws)

/-- A host access does nothing to a BUSY block (R176, R179). -/
theorem step_hostAccess_of_busy {v : State} (hb : v.st = .busy) {t : Turn} (ht : t.isHostAccess = true) {ts : List Turn}
    (hturns : v.turns = t :: ts) : ∃ w, step v = .next w ∧ w.block = v.block ∧ w.turns = ts := by
  obtain ⟨w, hstep, hw, -, -, hblock⟩ := hostAccessNeverDisturbsTheBlock v t ts ht
  rw [← hturns] at hstep
  exact ⟨w, hstep, hblock hb, hw⟩

theorem runSteps_succ_next {k : Nat} {s u : State} (h : runSteps (k + 1) s = .next u) :
    ∃ t, step s = .next t ∧ runSteps k t = .next u := by
  rw [runSteps] at h
  cases hstep : step s with
  | next t => exact ⟨t, rfl, by rwa [hstep] at h⟩
  | fault r => rw [hstep] at h; cases h
  | refused r => rw [hstep] at h; cases h

/-- The blocks stay equal, turn by turn: a core turn does the same to both, and a host access does nothing. -/
theorem exists_interleaved_run {ts : List Turn} (hturns : ∀ t ∈ ts, t = .core ∨ t.isHostAccess = true) {s v u : State}
    (hs : s.turns = []) (hv : v.block = s.block) (hvt : v.turns = ts ++ [.core])
    (hbusy : ∀ j, j ≤ ts.count .core → ∃ u, runSteps j s = .next u ∧ u.st = .busy)
    (hrun : runSteps (ts.count .core + 1) s = .next u) :
    ∃ t, runSteps (ts.length + 1) v = .next t ∧ t.block = u.block := by
  induction ts generalizing s v with
  | nil =>
    obtain ⟨t, hstep, ht⟩ := runSteps_succ_next hrun
    cases ht
    obtain ⟨w, hw, hblock, -⟩ := step_core_of_block_eq hs hstep hv hvt
    exact ⟨w, runSteps_succ hw 0, hblock⟩
  | cons c ts ih =>
    obtain ⟨hc, hts⟩ := List.forall_mem_cons.mp hturns
    rcases hc with rfl | hc
    · rw [List.count_cons_self] at hbusy hrun
      obtain ⟨t, hstep, hrest⟩ := runSteps_succ_next hrun
      obtain ⟨w, hw, hblock, hwt⟩ := step_core_of_block_eq hs hstep hv hvt
      have ht : t.turns = [] := (coreTurn_turns ((step_of_no_turns hs).symm.trans hstep)).trans hs
      have hbusy' : ∀ j, j ≤ ts.count .core → ∃ u, runSteps j t = .next u ∧ u.st = .busy := fun j hj => by
        have hnext := hbusy (j + 1) (Nat.succ_le_succ hj)
        rwa [runSteps_succ hstep] at hnext
      obtain ⟨x, hx, hxu⟩ := ih hts ht hblock hwt hbusy' hrest
      exact ⟨x, (runSteps_succ hw _).trans hx, hxu⟩
    · have hne : c ≠ .core := by rintro rfl; cases hc
      rw [List.count_cons_of_ne hne] at hbusy hrun
      obtain ⟨s', hs', hb⟩ := hbusy 0 (Nat.zero_le _)
      cases hs'
      have hvb : v.st = .busy := (congrArg State.st (eq_withOutside_of_block_eq hv)).trans hb
      obtain ⟨w, hw, hblock, hwt⟩ := step_hostAccess_of_busy hvb hc hvt
      obtain ⟨x, hx, hxu⟩ := ih hts hs (hblock.trans hv) hwt hbusy hrun
      exact ⟨x, (runSteps_succ hw _).trans hx, hxu⟩

/-- Settles O59: the interleaved run starts from the same block. -/
theorem hostInterleavingHasNoEffect : Obligations.HostInterleavingHasNoEffect :=
  fun s _ hturns hbusy _ hrun => exists_interleaved_run (s := { s with turns := [] }) hturns rfl rfl rfl hbusy hrun

/-! ## Runs of the core alone -/

/-- `BusyRun n s t`: from `s`, `n` steps lead to `t`, and each of them is taken by a BUSY block. -/
inductive BusyRun : Nat → State → State → Prop where
  | done (s : State) : BusyRun 0 s s
  | next {n : Nat} {s t u : State} (hb : s.st = .busy) (h : step s = .next t) (hrun : BusyRun n t u) : BusyRun (n + 1) s u

theorem BusyRun.runSteps_eq {n : Nat} {s t : State} (h : BusyRun n s t) : runSteps n s = .next t := by
  induction h with
  | done s => rfl
  | next hb hstep _ ih => rw [runSteps_succ hstep, ih]

theorem BusyRun.trans {m n : Nat} {s t u : State} (h₁ : BusyRun m s t) (h₂ : BusyRun n t u) : BusyRun (m + n) s u := by
  induction h₁ with
  | done s => rwa [Nat.zero_add]
  | next hb hstep _ ih => rw [Nat.succ_add]; exact .next hb hstep (ih h₂)

/-- With no turn left, a BUSY block takes the operation that `PHASE` selects. -/
theorem busyRun_one {s t : State} {i : Instr} (hb : s.st = .busy) (hturns : s.turns = [])
    (hi : decode s.params (coreFetch s) = .ok i) (h : exec i s = .next t) : BusyRun 1 s t := by
  refine .next hb ?_ (.done t)
  rw [step_of_no_turns hturns]
  exact (if_pos hb).trans ((runFetch_of_ok s hi).trans h)

/-- Every operation that a phase selects answers a next state. -/
theorem exists_core_operation {s : State} (h1 : s.phase ≠ 0) (h2 : s.phase.toNat ≤ 11) :
    ∃ i t, decode s.params (coreFetch s) = .ok i ∧ exec i s = .next t := by
  obtain ⟨i, hi⟩ := decodePhase_total ⟨s.x, s.width, s.nacc, s.kb, s.pbpr⟩ h1 h2
  suffices hexec : ∃ t, exec i s = .next t from hexec.elim fun t ht => ⟨i, t, hi, ht⟩
  rcases decodePhase_ok hi with ⟨-, rfl⟩ | ⟨-, rfl⟩ | ⟨-, rfl⟩ | ⟨-, rfl⟩ | ⟨-, rfl⟩ | ⟨-, rfl⟩ | ⟨-, rfl⟩ | ⟨-, rfl⟩ |
    ⟨-, rfl⟩ | ⟨-, rfl⟩ | ⟨-, rfl⟩
  iterate 9 · exact ⟨_, rfl⟩
  · rcases decodePix_cases ⟨s.x, s.width, s.nacc, s.kb, s.pbpr⟩ with ⟨-, e⟩ | ⟨-, -, e⟩ | ⟨-, -, -, e⟩ | ⟨-, -, -, e⟩ <;>
      rw [e] <;> exact ⟨_, rfl⟩
  · exact ⟨_, rfl⟩

/-! ## From FILEHDR to FIN -/

/-- What is settled before FILEHDR, for the phases from there to PIX do not write it: all but `OUT`, `OADDR`, `PHASE`, the loop
counters and the accumulator. -/
def State.settled (s : State) : State :=
  { s with phase := 0, x := 0, y := 0, kb := 0, sidx := 0, acc := 0, nacc := 0, oaddr := 0, outMem := [] }

@[simp] theorem settled_setPhase (s : State) (p : BitVec 4) : (s.setPhase p).settled = s.settled := rfl
@[simp] theorem settled_nextPixel (s : State) : (nextPixel s).settled = s.settled := rfl
@[simp] theorem settled_emptyAcc (s : State) : (emptyAcc s).settled = s.settled := rfl
@[simp] theorem settled_emitByte (s : State) (v : Byte) : (s.emitByte v).settled = s.settled := rfl

/-- Steps that a row takes: one for each pixel, one for each byte that no eighth pixel completes, and K.NEXTROW (R182). -/
def rowSteps (w : Nat) : Nat := w + (paddedBytesPerRow w - w / 8) + 1

/-- Steps that the current row has taken: its pixels, and its bytes from the first that no eighth pixel completes (R182). -/
def State.rowStepsTaken (s : State) : Nat := s.x.toNat + (s.kb.toNat - s.width.toNat / 8)

/-- Steps up to and with S.FINISH, from a phase from FILEHDR to FIN on (R182). -/
def State.stepsLeft (s : State) : Nat :=
  (10 - s.phase.toNat) + ((s.height.toNat - s.y.toNat) * rowSteps s.width.toNat - s.rowStepsTaken) + 1

/-- The steps of R182, where the flush of a row is a byte that no eighth pixel completes. -/
theorem transactionSteps_tConvert (u w h : Byte) :
    transactionSteps (.tConvert u w h) = 10 + h.toNat * rowSteps w.toNat + 1 := by
  have hflush : (if w.toNat % 8 = 0 then 0 else 1) + (paddedBytesPerRow w.toNat - bytesPerRow w.toNat)
      = paddedBytesPerRow w.toNat - w.toNat / 8 := by
    have := bytesPerRow_le_padded w.toNat
    rw [bytesPerRow_eq] at this ⊢
    split <;> omega
  rw [transactionSteps, rowSteps, Nat.add_assoc w.toNat, hflush]

/-- `OUT` of `t` is `OUT` of `g` with a block written at address 0 that ends at `OADDR`. -/
def State.WrittenUpTo (g t : State) : Prop :=
  ∃ bytes, t.outMem = g.outMem.writeBlock 0 bytes ∧ t.oaddr.toNat = bytes.length

/-- Bytes written at `OADDR` are appended. -/
theorem State.WrittenUpTo.append {g s t : State} (h : g.WrittenUpTo s) (more : List Byte)
    (hout : t.outMem = s.outMem.writeBlock s.oaddr.toNat more) (haddr : t.oaddr.toNat = s.oaddr.toNat + more.length) :
    g.WrittenUpTo t := by
  obtain ⟨bytes, hbytes, hlen⟩ := h
  refine ⟨bytes ++ more, ?_, by rw [haddr, hlen, List.length_append]⟩
  rw [hout, hbytes, hlen, ← Memory.writeBlock_append, Nat.zero_add]

/-- Where `OUT` holds as many bytes from address 0 on as were written there, those are the bytes that were written. -/
theorem State.WrittenUpTo.outMem_eq {g t : State} {bytes : List Byte} (h : g.WrittenUpTo t) (hholds : t.OutHolds 0 bytes)
    (hlen : t.oaddr.toNat = bytes.length) : t.outMem = g.outMem.writeBlock 0 bytes := by
  obtain ⟨written, hout, hwritten⟩ := h
  suffices written = bytes by rw [hout, this]
  refine List.ext_getElem (hwritten.symm.trans hlen) fun i h1 h2 => ?_
  have hread := Memory.read_writeBlock_inside g.outMem 0 i written h1
  rw [← hout, hholds i _ (List.getElem?_eq_getElem h2)] at hread
  exact (Option.some.inj hread).symm

/-- `t` comes after `s` in a run from FILEHDR to FIN: bytes are appended to `OUT`, what was settled stays, and a
step fewer is left. -/
structure State.Advances (s t : State) : Prop where
  settled : t.settled = s.settled
  phase   : s.phase.toNat ≤ t.phase.toNat
  append  : ∀ {g : State}, g.WrittenUpTo s → g.WrittenUpTo t
  steps   : s.stepsLeft = t.stepsLeft + 1

/-- A row never takes all of its steps before K.NEXTROW. -/
theorem State.PixOk.rowStepsTaken_lt {s : State} (hs : s.PixOk) (hgeom : s.GeometryOk) :
    s.rowStepsTaken < rowSteps s.width.toNat := by
  have hx := hs.xBound
  have hkb := hs.kbBound
  obtain ⟨-, hpbpr, -⟩ := hgeom
  rw [rowSteps, State.rowStepsTaken, ← hpbpr]
  omega

/-- One more step in the row is one step fewer to take. -/
theorem stepsLeft_of_row_step {s t : State} (ht : t.PixOk) (hgeom : t.GeometryOk) (hp : s.phase = 10) (htp : t.phase = 10)
    (hw : t.width = s.width) (hh : t.height = s.height) (hy : t.y = s.y)
    (htaken : t.rowStepsTaken = s.rowStepsTaken + 1) : s.stepsLeft = t.stepsLeft + 1 := by
  have hlt := ht.rowStepsTaken_lt hgeom
  have hrow : 1 * rowSteps t.width.toNat ≤ (t.height.toNat - t.y.toNat) * rowSteps t.width.toNat :=
    Nat.mul_le_mul_right _ (Nat.sub_pos_of_lt ht.yBound)
  rw [State.stepsLeft, State.stepsLeft, hp, htp, ← hw, ← hh, ← hy]
  omega

/-- A row begun is the step K.NEXTROW taken, the last one of the row before it. -/
theorem stepsLeft_of_row_begun {s t : State} (hy : s.y.toNat < s.height.toNat) (hp : s.phase = 10)
    (htp : 10 ≤ t.phase.toNat) (hw : t.width = s.width) (hh : t.height = s.height) (hty : t.y.toNat = s.y.toNat + 1)
    (hlast : s.rowStepsTaken + 1 = rowSteps s.width.toNat) (hfirst : t.rowStepsTaken = 0) :
    s.stepsLeft = t.stepsLeft + 1 := by
  obtain ⟨rows, hrows⟩ := Nat.exists_eq_add_one.mpr (Nat.sub_pos_of_lt hy)
  have hleft : s.height.toNat - (s.y.toNat + 1) = rows := by omega
  rw [State.stepsLeft, State.stepsLeft, hp, hfirst, hw, hh, hty, hleft, hrows, Nat.succ_mul, ← hlast]
  have h10 : (10 : BitVec 4).toNat = 10 := rfl
  omega

/-- The byte at `KB` has a place in the row while pixels of the row are left or held in the accumulator (R105, R106). -/
theorem State.PixOk.room {s : State} (hs : s.PixOk) (hgeom : s.GeometryOk)
    (h : s.x.toNat < s.width.toNat ∨ s.nacc ≠ 0) : s.kb.toNat < s.pbpr.toNat := by
  obtain ⟨hbpr, hle⟩ := hgeom.bpr_le
  obtain ⟨hkb, hnacc⟩ := hs.inRow h
  have hx := hs.xBound
  rcases h with h | h
  · omega
  · have : s.nacc.toNat ≠ 0 := fun h0 => h (BitVec.eq_of_toNat_eq h0)
    omega

/-- A stage F operation appends its block of the header. -/
theorem advances_header {s : State} {a : Nat} {bytes : List Byte} {o : BitVec 14} {p : BitVec 4} (ha : s.oaddr.toNat = a)
    (ho : o.toNat = a + bytes.length) (hp : p.toNat = s.phase.toNat + 1) (hp10 : p.toNat ≤ 10) :
    s.Advances ({ s.putOut a bytes with oaddr := o }.setPhase p) where
  settled := rfl
  phase := by rw [setPhase_phase]; omega
  append h := h.append bytes (by rw [ha]; rfl) (by rw [ha]; exact ho)
  steps := by
    have hleft : 10 - s.phase.toNat = (10 - p.toNat) + 1 := by omega
    rw [State.stepsLeft, hleft, Nat.add_right_comm _ 1, Nat.add_right_comm _ 1]
    rfl

section
variable {s : State} (hs : s.PhaseOk) (hp : s.phase = 10)
include hs hp

/-- An operation of phase PIX that emits a byte appends it. -/
theorem advances_emit {t : State} {v : Byte} (ht : t.PhaseOk) (htp : t.phase = 10) (hsettled : t.settled = s.settled)
    (hemits : s.Emits v t) (hout : t.outMem = s.outMem.writeBlock s.oaddr.toNat [v]) (hroom : s.kb.toNat < s.pbpr.toNat)
    (htaken : t.x.toNat + (s.kb.toNat + 1 - s.width.toNat / 8) = s.rowStepsTaken + 1) : s.Advances t := by
  obtain ⟨hgeom, hpix⟩ := hs.pix hp
  obtain ⟨hgeom', hpix'⟩ := ht.pix htp
  obtain ⟨hkb, hoaddr⟩ := hpix.emit_bounds hgeom hroom
  refine ⟨hsettled, by rw [hp, htp], fun h => h.append [v] hout (by rw [hemits.oaddr, hoaddr]; rfl), ?_⟩
  refine stepsLeft_of_row_step hpix' hgeom' hp htp hemits.image.width hemits.image.height hemits.y ?_
  rw [← htaken, State.rowStepsTaken, hemits.kb, hkb, hemits.image.width]

/-- K.SHIFT on the eighth bit (R105). -/
theorem advances_byte_shifted (v : Byte) (ht : ((emptyAcc ((nextPixel s).emitByte v)).setPhase 10).PhaseOk)
    (hx : s.x.toNat < s.width.toNat) (h7 : s.nacc = 7) : s.Advances ((emptyAcc ((nextPixel s).emitByte v)).setPhase 10) := by
  obtain ⟨hgeom, hpix⟩ := hs.pix hp
  obtain ⟨hkb, hnacc⟩ := hpix.inRow (.inl hx)
  have h7' : s.nacc.toNat = 7 := by rw [h7]; rfl
  obtain ⟨hx', -⟩ := hpix.nextPixel_toNat hx
  refine advances_emit hs hp ht rfl (by simp) (emits_nextPixel s v) rfl (hpix.room hgeom (.inl hx)) ?_
  simp only [State.rowStepsTaken, setPhase_x, emptyAcc_x, emitByte_x, nextPixel_x, hx']
  omega

/-- K.SHIFT before the eighth bit (R105). -/
theorem advances_bit_shifted {acc : Byte} {nacc : BitVec 3}
    (ht : ({ nextPixel s with acc := acc, nacc := nacc }.setPhase 10).PhaseOk) (hx : s.x.toNat < s.width.toNat) :
    s.Advances ({ nextPixel s with acc := acc, nacc := nacc }.setPhase 10) := by
  obtain ⟨-, hpix⟩ := hs.pix hp
  obtain ⟨hgeom', hpix'⟩ := ht.pix rfl
  obtain ⟨hx', -⟩ := hpix.nextPixel_toNat hx
  refine ⟨rfl, by rw [hp]; rfl, fun h => h.append [] rfl rfl, stepsLeft_of_row_step hpix' hgeom' hp rfl rfl rfl rfl ?_⟩
  simp only [State.rowStepsTaken, setPhase_x, setPhase_kb, setPhase_width, nextPixel_x, nextPixel_kb, nextPixel_width, hx']
  omega

/-- K.FLUSH (R106). -/
theorem advances_flushed (v : Byte) (ht : ((emptyAcc (s.emitByte v)).setPhase 10).PhaseOk) (hx : s.width.toNat ≤ s.x.toNat)
    (hn : s.nacc ≠ 0) : s.Advances ((emptyAcc (s.emitByte v)).setPhase 10) := by
  obtain ⟨hgeom, hpix⟩ := hs.pix hp
  obtain ⟨hkb, -⟩ := hpix.inRow (.inr hn)
  have hend := hpix.xBound
  refine advances_emit hs hp ht rfl (by simp) (emits_emptyAcc s v) rfl (hpix.room hgeom (.inr hn)) ?_
  change s.x.toNat + _ = _
  rw [State.rowStepsTaken]; omega

/-- K.PAD (R107). -/
theorem advances_padded (ht : ((s.emitByte 0).setPhase 10).PhaseOk) (hx : s.width.toNat ≤ s.x.toNat) (hn : s.nacc = 0)
    (hroom : s.kb.toNat < s.pbpr.toNat) : s.Advances ((s.emitByte 0).setPhase 10) := by
  obtain ⟨hgeom, hpix⟩ := hs.pix hp
  obtain ⟨hbpr, -⟩ := hgeom.bpr_le
  have hdata := hpix.rowEnd (Nat.le_antisymm hpix.xBound hx) hn
  refine advances_emit hs hp ht rfl (by simp) (emits_emitByte 0 (hpix.acc_eq_zero hn) hn) rfl hroom ?_
  change s.x.toNat + _ = _
  rw [State.rowStepsTaken]; omega

/-- K.NEXTROW (R108). -/
theorem advances_row_completed (hx : s.width.toNat ≤ s.x.toNat) (hfull : s.pbpr.toNat ≤ s.kb.toNat) {p : BitVec 4}
    (htp : 10 ≤ p.toNat) : s.Advances ({ s with y := s.y + 1, x := 0, kb := 0 }.setPhase p) := by
  obtain ⟨⟨-, hpbpr, -⟩, hpix⟩ := hs.pix hp
  have hend := hpix.xBound
  have hkb := hpix.kbBound
  have hlast : s.rowStepsTaken + 1 = rowSteps s.width.toNat := by
    rw [State.rowStepsTaken, rowSteps, ← hpbpr]; omega
  have hfirst : ({ s with y := s.y + 1, x := 0, kb := 0 }.setPhase p).rowStepsTaken = 0 := by
    simp [State.rowStepsTaken]
  exact ⟨rfl, by rw [hp]; exact htp, fun h => h.append [] rfl rfl,
    stepsLeft_of_row_begun hpix.yBound hp htp rfl rfl (y_succ_toNat hpix.yBound) hlast hfirst⟩

end

/-- Before S.FINISH, every core operation from FILEHDR on advances. -/
theorem core_operation_advances {s t : State} {i : Instr} (hs : s.PhaseOk) (ht : t.PhaseOk) (h7 : 7 ≤ s.phase.toNat)
    (hp11 : s.phase ≠ 11) (hi : decode s.params (coreFetch s) = .ok i) (h : exec i s = .next t) : s.Advances t := by
  rcases core_operation_cases hi h with ⟨hp, -⟩ | ⟨hp, -⟩ | ⟨hp, -⟩ | ⟨hp, -⟩ | ⟨hp, -⟩ | ⟨hp, -⟩ | ⟨hp, -⟩ | ⟨hp, -⟩ |
    ⟨hp, -⟩ | ⟨hp, -⟩ | ⟨hp, rfl⟩ | ⟨hp, rfl⟩ | ⟨hp, rfl⟩ | ⟨hp, hx, hn, rfl⟩ | ⟨hp, hx, -, rfl⟩ | ⟨hp, hx, hn, rfl⟩ |
    ⟨hp, hx, hn, hk, rfl⟩ | ⟨hp, hx, -, hk, rfl⟩ | ⟨hp, -⟩
  -- stage P and K.GEOM come before FILEHDR
  iterate 10 · simp [hp] at h7
  -- stage F
  · have haddr : s.oaddr = 0 := hs.atStart (by simp [hp])
    exact advances_header (by simp [haddr]) (by simp [fileHeader_length]) (by simp [hp]) (by simp)
  · have haddr : s.oaddr = 14 := hs.atInfo (by simp [hp])
    exact advances_header (by simp [haddr]) (by simp [infoHeader_length]) (by simp [hp]) (by simp)
  · have haddr : s.oaddr = 54 := hs.atPalette (by simp [hp])
    exact advances_header (by simp [haddr]) (by simp [palette_length]) (by simp [hp]) (by simp)
  -- phase PIX
  · exact advances_byte_shifted hs hp _ ht hx hn
  · exact advances_bit_shifted hs hp ht hx
  · exact advances_flushed hs hp _ ht hx hn
  · exact advances_padded hs hp ht hx hn hk
  · exact advances_row_completed hs hp hx hk (by split <;> simp)
  -- S.FINISH
  · exact absurd hp hp11

/-- `s` is a state of the run that begins with F.FILEHDR in `g`, before S.FINISH. -/
structure State.Writing (g s : State) : Prop where
  settled        : s.settled = g.settled
  fromFileHeader : 7 ≤ s.phase.toNat
  toFin          : s.phase.toNat ≤ 11
  reached        : s.PhaseOk
  written        : g.WrittenUpTo s

/-- States with the same settled part differ in `PHASE`, the loop registers, `OADDR` and `OUT` alone. -/
theorem eq_of_settled_eq {s g : State} (h : s.settled = g.settled) : s = { g with
    phase := s.phase, x := s.x, y := s.y, kb := s.kb, sidx := s.sidx, acc := s.acc, nacc := s.nacc, oaddr := s.oaddr
    outMem := s.outMem } := by
  cases s; cases g
  simpa [State.settled] using h

theorem sameImage_of_settled_eq {s g : State} (h : s.settled = g.settled) : g.SameImage s := by
  rw [eq_of_settled_eq h]
  exact ⟨⟨rfl, rfl, rfl, rfl⟩, rfl, rfl, rfl, rfl, rfl, rfl, rfl, rfl, rfl⟩

theorem st_turns_err_of_settled_eq {s g : State} (h : s.settled = g.settled) :
    s.st = g.st ∧ s.turns = g.turns ∧ s.err = g.err := by
  rw [eq_of_settled_eq h]
  exact ⟨rfl, rfl, rfl⟩

/-- The result of an accepted transaction whose geometry is latched in `g`: the loop registers at the end of the pixels, and the
image published in `OUT` (R148, R149). -/
def State.published (g : State) : State :=
  { (endOfPixels g).putOut 0 (encodeImage g.params g.width.toNat g.height.toNat g.body) with
    outLen := (endOfPixels g).fsize, st := .done, phase := 0 }

section
variable {g s : State} (hs : g.Writing s)
include hs

/-- At FIN the whole image is written, and nothing else is. -/
theorem State.Writing.outMem_eq (hp : s.phase = 11) :
    s.outMem = g.outMem.writeBlock 0 (encodeImage g.params g.width.toNat g.height.toNat g.body) := by
  obtain ⟨-, hgeom, hheader, hfin⟩ := (phaseOk_iff_of_eleven hp).mp hs.reached
  have ⟨_, _, _, hfsize⟩ := hgeom
  have hsame := sameImage_of_settled_eq hs.settled
  rw [← hsame.body_eq, ← hsame.width, ← hsame.height, ← hsame.params]
  refine hs.written.outMem_eq (OutHolds_encodeImage hgeom hheader hfin.pixels) ?_
  rw [hfin.address, hfsize, encodeImage_length]

/-- S.FINISH publishes the result: what the run from FILEHDR on has written is all settled before it. -/
theorem State.Writing.finish (hg : g.LoopCleared) (hp : s.phase = 11) : exec .sFinish s = .next g.published := by
  obtain ⟨-, -, -, hfin⟩ := (phaseOk_iff_of_eleven hp).mp hs.reached
  obtain ⟨hx, hkb, hacc, hnacc⟩ := hfin.loops
  obtain ⟨hgx, -, hgkb, -, hgacc, hgnacc⟩ := hg
  have hsame := sameImage_of_settled_eq hs.settled
  have hsidx : s.sidx = BitVec.ofNat 16 (g.width.toNat * g.height.toNat) := by
    rw [← hsame.width, ← hsame.height, ← hfin.index, BitVec.ofNat_toNat, BitVec.setWidth_eq]
  have heq := eq_of_settled_eq hs.settled
  rw [hx.trans hgx.symm, hfin.row.trans hsame.height, hkb.trans hgkb.symm, hsidx, hacc.trans hgacc.symm,
    hnacc.trans hgnacc.symm, hfin.address.trans hsame.fsize, hs.outMem_eq hp] at heq
  rw [exec_sFinish, State.published]
  generalize encodeImage g.params g.width.toNat g.height.toNat g.body = bytes at heq ⊢
  rw [heq]
  rfl

end

section
variable {g s : State} (hb : g.st = .busy) (herr : g.err = 0) (hs : g.Writing s)
include hb herr hs

/-- Before S.FINISH, the run from FILEHDR on takes a step. -/
theorem State.Writing.step (hp : s.phase ≠ 11) :
    ∃ i t, decode s.params (coreFetch s) = .ok i ∧ exec i s = .next t ∧ g.Writing t ∧ s.stepsLeft = t.stepsLeft + 1 := by
  obtain ⟨hst, -, hserr⟩ := st_turns_err_of_settled_eq hs.settled
  have h7 := hs.fromFileHeader
  have h0 : s.phase ≠ 0 := fun h0 => by simp [h0] at h7
  obtain ⟨i, t, hi, h⟩ := exists_core_operation h0 hs.toFin
  have hcodes : t.st = s.st ∧ t.phase.toNat ≤ 11 := by
    rcases core_operation_codes hi h with ⟨hle, hnext, ht, -⟩ | ⟨hcode, -⟩ | ⟨hlast, -⟩
    · refine ⟨ht, ?_⟩
      rcases hnext with hsame | hsucc
      · rw [hsame]; exact hs.toFin
      · omega
    · rcases hcode with ⟨-, h1⟩ | ⟨-, h1⟩ | ⟨-, h1⟩ | ⟨-, h1⟩ <;> simp [h1] at h7
    · exact absurd hlast hp
  obtain ⟨htst, ht11⟩ := hcodes
  have ht : t.PhaseOk := by
    rcases core_operation_outcome hs.reached (hserr.trans herr) hi h with ⟨-, ht⟩ | ⟨hend, -⟩
    · exact ht
    · exact absurd (htst.trans (hst.trans hb)) hend
  have hadv := core_operation_advances hs.reached ht h7 hp hi h
  exact ⟨i, t, hi, h, ⟨hadv.settled.trans hs.settled, h7.trans hadv.phase, ht11, ht, hadv.append hs.written⟩, hadv.steps⟩

/-- The run from FILEHDR on, through the rows to S.FINISH, takes the steps that are left (R182). -/
theorem State.Writing.busyRun (hturns : g.turns = []) (hg : g.LoopCleared) : BusyRun s.stepsLeft s g.published := by
  generalize hn : s.stepsLeft = n
  induction n generalizing s with
  | zero => exact absurd hn (Nat.succ_ne_zero _)
  | succ n ih =>
    obtain ⟨hst, hsturns, -⟩ := st_turns_err_of_settled_eq hs.settled
    rw [hb] at hst
    rw [hturns] at hsturns
    rcases eq_or_ne s.phase 11 with hp | hp
    · have hi : decode s.params (coreFetch s) = .ok .sFinish := by simp [decode, coreFetch, decodePhase, hp]
      have hfin : s.FinOk := hs.reached.finished (by simp [hp])
      obtain ⟨hx, hkb, -, -⟩ := hfin.loops
      have hone : s.stepsLeft = 1 := by simp [State.stepsLeft, State.rowStepsTaken, hp, hfin.row, hx, hkb]
      obtain rfl : n = 0 := by omega
      exact busyRun_one hst hsturns hi (hs.finish hg hp)
    · obtain ⟨i, t, hi, h, htw, hleft⟩ := hs.step hb herr hp
      rw [Nat.add_comm]
      exact (busyRun_one hst hsturns hi h).trans (ih htw (Nat.succ.inj (hleft.symm.trans hn)))

end

/-- The run from F.FILEHDR to S.FINISH publishes the result (R148, R182). -/
theorem busyRun_published {g : State} (hs : g.PhaseOk) (hp : g.phase = 7) (hb : g.st = .busy) (hturns : g.turns = [])
    (herr : g.err = 0) : BusyRun (3 + g.height.toNat * rowSteps g.width.toNat + 1) g g.published := by
  obtain ⟨-, -, hloops, haddr⟩ := (phaseOk_iff_of_seven hp).mp hs
  have ⟨hx, hy, hkb, _⟩ := hloops
  have hwriting : g.Writing g := ⟨rfl, by simp [hp], by simp [hp], hs, [], rfl, by simp [haddr]⟩
  have hsteps : g.stepsLeft = 3 + g.height.toNat * rowSteps g.width.toNat + 1 := by
    simp [State.stepsLeft, State.rowStepsTaken, hp, hx, hy, hkb]
  exact hsteps ▸ hwriting.busyRun hb herr hturns hloops

/-! ## From H.START to K.GEOM -/

section
variable {l : State} (hb : l.st = .busy) (hturns : l.turns = [])
include hb hturns

theorem busyRun_length_rejected (h : l.inLen ≤ l.params.tooSmallMax.toNat) : BusyRun 1 (l.setPhase 1) (l.reject 1) :=
  busyRun_one hb hturns (i := .pChklen) rfl (congrArg _ (if_pos ((isTooSmall_iff _).mpr h)))

theorem busyRun_length_checked (h : l.params.tooSmallMax.toNat < l.inLen) : BusyRun 1 (l.setPhase 1) (l.setPhase 2) :=
  busyRun_one hb hturns (i := .pChklen) rfl (congrArg _ (if_neg (mt (isTooSmall_iff _).mp (Nat.not_le.mpr h))))

theorem busyRun_latched :
    BusyRun 1 (l.setPhase 2) ((withHeader (inByte l 1) (inByte l 2) (inByte l 3) l).setPhase 3) :=
  busyRun_one hb hturns (i := .pLatch) rfl rfl

theorem busyRun_dimensions_rejected (h : l.width = 0 ∨ l.height = 0) : BusyRun 1 (l.setPhase 3) (l.reject 2) :=
  busyRun_one hb hturns (i := .pChkdim) rfl (congrArg _ (if_pos (by simpa [hasBadDimension] using h)))

theorem busyRun_dimensions_checked (h : l.Dimensioned) : BusyRun 1 (l.setPhase 3) (l.setPhase 4) :=
  busyRun_one hb hturns (i := .pChkdim) rfl (congrArg _ (if_neg (by simpa [hasBadDimension, State.Dimensioned] using h)))

theorem busyRun_data_rejected (h : l.inLen - 4 < packedByteCount l.width.toNat l.height.toNat) :
    BusyRun 1 (l.setPhase 4) ((latchCounts l).reject 3) :=
  busyRun_one hb hturns (i := .pChkdata) rfl (exec_pChkdata_of_short (s := l.setPhase 4) h)

theorem busyRun_data_checked (h : packedByteCount l.width.toNat l.height.toNat ≤ l.inLen - 4) :
    BusyRun 1 (l.setPhase 4) ((latchCounts l).setPhase 5) :=
  busyRun_one hb hturns (i := .pChkdata) rfl (exec_pChkdata_of_enough (s := l.setPhase 4) h)

theorem busyRun_depth_rejected (h : l.depth ≠ 1) : BusyRun 1 (l.setPhase 5) (l.reject 4) :=
  busyRun_one hb hturns (i := .pChkdepth) rfl (congrArg _ (if_pos (by simpa [hasBadDepth] using h)))

theorem busyRun_depth_checked (h : l.depth = 1) : BusyRun 1 (l.setPhase 5) (l.setPhase 6) :=
  busyRun_one hb hturns (i := .pChkdepth) rfl (congrArg _ (if_neg (by simpa [hasBadDepth] using h)))

theorem busyRun_geometry : BusyRun 1 (l.setPhase 6) ((latchGeometry l).setPhase 7) :=
  busyRun_one hb hturns (i := .kGeom) rfl rfl

end

/-- The core runs a transaction of class `i` from `s`, BUSY at every step of it, to the state that the class taken as one step leaves,
in as many steps as R182 counts, H.START included. -/
def State.CoreRunAgrees (s : State) (i : Instr) : Prop :=
  ∃ n t, transactionSteps i = n + 1 ∧ BusyRun n s.begin t ∧ exec i s = .next t

section
variable {s : State} (hb : s.st ≠ .busy) (hturns : s.turns = [])
include hb hturns

/-- The core runs an accepted transaction from H.START to S.FINISH. -/
theorem coreRunAgrees_tConvert (u : Byte) {w h : Byte} (hn : s.params.tooSmallMax.toNat < s.inLen)
    (hlatched : (withHeader w h 1 s.begin).HeaderLatched) (hw : w ≠ 0) (hh : h ≠ 0)
    (hl : packedByteCount w.toNat h.toNat ≤ s.inLen - 4)
    (hrun : BusyRun 2 s.begin ((withHeader w h 1 s.begin).setPhase 3)) : s.CoreRunAgrees (.tConvert u w h) := by
  have hchecked : BusyRun 6 s.begin ((latchGeometry (latchCounts (withHeader w h 1 s.begin))).setPhase 7) :=
    (((hrun.trans (busyRun_dimensions_checked rfl hturns ⟨hw, hh⟩)).trans (busyRun_data_checked rfl hturns hl)).trans
      (busyRun_depth_checked rfl hturns rfl)).trans (busyRun_geometry rfl hturns)
  have hexpected := latchCounts_expected_toNat (withHeader w h 1 s.begin)
  have hreached : ((latchGeometry (latchCounts (withHeader w h 1 s.begin))).setPhase 7).PhaseOk :=
    (phaseOk_iff_of_seven rfl).mpr ⟨⟨hn, hlatched, ⟨hw, hh⟩, ⟨hexpected, rfl, hexpected.trans_le hl⟩, rfl⟩,
      latchGeometry_geometryOk _, ⟨rfl, rfl, rfl, rfl, rfl, rfl⟩, rfl⟩
  refine ⟨6 + (3 + h.toNat * rowSteps w.toNat + 1), _, ?_,
    hchecked.trans (busyRun_published hreached rfl rfl hturns rfl), execTConvert_eq hb u hw hh⟩
  rw [transactionSteps_tConvert]
  omega

/-- Past the length check, the core's checks and the class of the header branch on the same conditions (R72, R80). -/
theorem coreRunAgrees_past_length (u : Byte) {w h d : Byte} (hn : s.params.tooSmallMax.toNat < s.inLen)
    (hlatched : (withHeader w h d s.begin).HeaderLatched)
    (hrun : BusyRun 2 s.begin ((withHeader w h d s.begin).setPhase 3)) :
    s.CoreRunAgrees (decodeHeader s.params s.inLen (headerWordOf u w h d)) := by
  rw [decodeHeader_headerWordOf hn]
  split_ifs with hw hh hs hd
  · subst hw
    exact ⟨3, _, rfl, hrun.trans (busyRun_dimensions_rejected rfl hturns (.inl rfl)), whenHostOwns_of_not_busy _ hb⟩
  · subst hh
    exact ⟨3, _, rfl, hrun.trans (busyRun_dimensions_rejected rfl hturns (.inr rfl)), whenHostOwns_of_not_busy _ hb⟩
  · exact ⟨4, _, rfl, (hrun.trans (busyRun_dimensions_checked rfl hturns ⟨hw, hh⟩)).trans
      (busyRun_data_rejected rfl hturns hs), whenHostOwns_of_not_busy _ hb⟩
  · exact ⟨5, _, rfl, ((hrun.trans (busyRun_dimensions_checked rfl hturns ⟨hw, hh⟩)).trans
      (busyRun_data_checked rfl hturns (Nat.le_of_not_lt hs))).trans (busyRun_depth_rejected rfl hturns hd),
      whenHostOwns_of_not_busy _ hb⟩
  · obtain rfl := not_not.mp hd
    exact coreRunAgrees_tConvert hb hturns u hn hlatched hw hh (Nat.le_of_not_lt hs) hrun

/-- The core's run agrees with the class of the input, whatever it is. -/
theorem coreRunAgrees_class : s.CoreRunAgrees (decodeHeader s.params s.inLen (headerWord s.begin)) := by
  rcases Nat.lt_or_ge s.params.tooSmallMax.toNat s.inLen with hn | hn
  · exact coreRunAgrees_past_length hb hturns _ hn ⟨rfl, rfl, rfl⟩
      ((busyRun_length_checked (l := s.begin) rfl hturns hn).trans (busyRun_latched rfl hturns))
  · rw [decodeHeader_of_le _ hn]
    exact ⟨1, _, rfl, busyRun_length_rejected (l := s.begin) rfl hturns hn, whenHostOwns_of_not_busy _ hb⟩

end

/-- START, written by a host that owns the block (R143). -/
theorem step_startTurn {s : State} (hb : s.st ≠ .busy) (ts : List Turn) :
    step { s with turns := startTurn :: ts } = .next ({ s with turns := ts } : State).begin := by
  have hfits : 1 < 2 ^ s.params.dataBits := Nat.lt_of_lt_of_le (by decide) (two_pow_32_le s.params)
  have hi : decode s.params (.regwr 0 1) = .ok .hStart := decode_ctrl_write hfits
  exact (runFetch_of_ok { s with turns := ts } hi).trans (whenHostOwns_of_not_busy (s := { s with turns := ts }) _ hb)

/-- Settles O56: START is the first of the steps that R182 counts, and the core's run from H.START takes the others. -/
theorem coreRunReachesTheTransactionResult : Obligations.CoreRunReachesTheTransactionResult := by
  intro s i hb _ hi
  cases hi
  obtain ⟨n, t, hsteps, hrun, hexec⟩ := coreRunAgrees_class (s := { s with turns := [] }) hb rfl
  change runSteps (transactionSteps (decodeHeader s.params s.inLen (headerWord s.begin))) _ = exec _ _
  calc runSteps (transactionSteps (decodeHeader s.params s.inLen (headerWord s.begin))) { s with turns := [startTurn] }
      = runSteps (n + 1) { s with turns := [startTurn] } := congrArg (runSteps · _) hsteps
    _ = runSteps n ({ s with turns := [] } : State).begin := runSteps_succ (step_startTurn hb []) n
    _ = .next t := hrun.runSteps_eq
    _ = step { s with turns := [.convert] } := hexec.symm

end Sys2Proof.Machine
end

section
/-! PROOFS. 60_exceptions.md: a rejection is precise (R156), what the transactions rejected for each of the four reasons leave
(R151 to R154, R157), what can change `OUT` (R44, R157), and what clears the outputs (R160). -/

namespace Sys2Proof.Machine

/-! ## Precise rejection (R156) -/

/-- The core's four ways into ERROR: `Reject` from the phase of the check that failed; check 3 alone has latched the counts. -/
theorem core_operation_rejects {s t : State} {i : Instr} (hb : s.st = .busy)
    (hi : decode s.params (coreFetch s) = .ok i) (h : exec i s = .next t) (hst : t.st = .error) :
    (s.phase = 1 ∧ t = s.reject 1) ∨ (s.phase = 3 ∧ t = s.reject 2)
    ∨ (s.phase = 4 ∧ t = (latchCounts s).reject 3) ∨ (s.phase = 5 ∧ t = s.reject 4) := by
  rcases core_operation_cases hi h with ⟨hp, -, rfl⟩ | ⟨-, -, rfl⟩ | ⟨-, rfl⟩ | ⟨hp, -, rfl⟩ | ⟨-, -, rfl⟩ |
    ⟨hp, -, rfl⟩ | ⟨-, -, rfl⟩ | ⟨hp, -, rfl⟩ | ⟨-, -, rfl⟩ | ⟨-, rfl⟩ | ⟨-, rfl⟩ | ⟨-, rfl⟩ | ⟨-, rfl⟩ |
    ⟨-, -, -, rfl⟩ | ⟨-, -, -, rfl⟩ | ⟨-, -, -, rfl⟩ | ⟨-, -, -, -, rfl⟩ | ⟨-, -, -, -, rfl⟩ | ⟨-, rfl⟩
  -- each check of stage P that failed, and the operations up to the next one, which stay BUSY
  · exact .inl ⟨hp, rfl⟩
  iterate 2 · simp [hb] at hst
  · exact .inr (.inl ⟨hp, rfl⟩)
  · simp [hb] at hst
  · exact .inr (.inr (.inl ⟨hp, rfl⟩))
  · simp [hb] at hst
  · exact .inr (.inr (.inr ⟨hp, rfl⟩))
  -- every operation after the checks stays BUSY or ends in DONE
  iterate 11 · simp [hb] at hst

/-- Settles O17: with no turn left the step is a core operation, and the four rejections say what they change. -/
theorem rejectionIsPrecise : Obligations.RejectionIsPrecise := by
  intro s t hb hturns h hst
  rcases coreTurn_next ((step_of_no_turns hturns).symm.trans h) with ⟨hidle, -⟩ | ⟨-, i, hi, hexec⟩
  · exact absurd hb hidle
  rcases core_operation_rejects hb hi hexec hst with ⟨hp, rfl⟩ | ⟨hp, rfl⟩ | ⟨hp, rfl⟩ | ⟨hp, rfl⟩
  · exact ⟨rfl, fun _ => ⟨rfl, rfl⟩, .inl ⟨rfl, hp⟩⟩
  · exact ⟨rfl, fun _ => ⟨rfl, rfl⟩, .inr (.inl ⟨rfl, hp⟩)⟩
  · exact ⟨rfl, fun hne => absurd hp hne, .inr (.inr (.inl ⟨rfl, hp⟩))⟩
  · exact ⟨rfl, fun _ => ⟨rfl, rfl⟩, .inr (.inr (.inr ⟨rfl, hp⟩))⟩

/-! ## The rejected transactions (R151 to R154) -/

/-- Reject, after H.START and latches of the header and the counts alone (R157). -/
theorem rejectedWith_reject (s : State) (w h d : Byte) (e : BitVec 16) (a : Nat) (code : BitVec 3) :
    s.RejectedWith code
      (({ s.begin with width := w, height := h, depth := d, expected := e, actual := a } : State).reject code) :=
  ⟨rfl, rfl, rfl, rfl, rfl, rfl, rfl, rfl, rfl, ⟨rfl, rfl, rfl, rfl, rfl, rfl⟩, rfl, rfl, rfl, rfl, rfl, rfl, rfl, rfl, rfl⟩

section
variable {s : State} (hb : s.st ≠ .busy) (w h d : Byte) (code : BitVec 3)
include hb

/-- A class that rejects before check 3 leaves the header it has latched and both counts 0. -/
theorem whenHostOwns_reject_uncounted : ∃ t, whenHostOwns s ((withHeader w h d s.begin).reject code) = .next t
    ∧ s.RejectedWith code t ∧ t.width = w ∧ t.height = h ∧ t.depth = d ∧ t.expected = 0 ∧ t.actual = 0 :=
  ⟨_, whenHostOwns_of_not_busy _ hb, rejectedWith_reject s w h d 0 0 code, rfl, rfl, rfl, rfl, rfl⟩

/-- A class that rejects at check 3 or later leaves the header and both counts, the demanded one exact (R84). -/
theorem whenHostOwns_reject_counted :
    ∃ t, whenHostOwns s ((latchCounts (withHeader w h d s.begin)).reject code) = .next t ∧ s.RejectedWith code t
      ∧ t.width = w ∧ t.height = h ∧ t.depth = d ∧ t.expected.toNat = packedByteCount w.toNat h.toNat
      ∧ t.actual = s.inLen - 4 :=
  ⟨_, whenHostOwns_of_not_busy _ hb, rejectedWith_reject s w h d _ _ code, rfl, rfl, rfl,
    latchCounts_expected_toNat (withHeader w h d s.begin), rfl⟩

end

/-- Settles O36: the header registers are 0 as H.START left them. -/
theorem tooSmallTransaction : Obligations.TooSmallTransaction :=
  fun _ hb => whenHostOwns_reject_uncounted hb 0 0 0 1

/-- Settles O37: the zero dimension is latched with the rest of the header. -/
theorem invalidDimensionsTransaction : Obligations.InvalidDimensionsTransaction := fun _ _ b d hb =>
  ⟨whenHostOwns_reject_uncounted hb 0 b d 2, whenHostOwns_reject_uncounted hb b 0 d 2⟩

/-- Settles O38: `e` is the body length the header demands. -/
theorem countingTransactions : Obligations.CountingTransactions := by
  intro s u w h d e hb _ he
  obtain rfl := isCeilDiv_unique (packedByteCount_isCeilDiv w.toNat h.toNat) he
  exact ⟨whenHostOwns_reject_counted hb w h d 3, whenHostOwns_reject_counted hb w h d 4⟩

/-! ## What can change `OUT` (R44, R157) -/

/-- Settles O53: by the kinds of step; a core operation writes `OUT` only in the phases from FILEHDR to PIX. -/
theorem outputWrittenOnlyAfterTheChecks : Obligations.OutputWrittenOnlyAfterTheChecks := by
  intro s t h hout
  rcases step_next_cases h with rfl | ⟨-, hb, i, hi, hexec⟩ | ⟨hturn, hb, -⟩ | ⟨hturn, -⟩ |
    ⟨-, ⟨a, v, -, rfl⟩ | ⟨n, rfl⟩ | ⟨rfl, -⟩ | rfl⟩ | ⟨v, n, -, rfl⟩
  · exact absurd rfl hout
  · obtain ⟨-, hkept | ⟨hphase, -⟩⟩ := core_operation_buffers hi hexec
    · exact absurd hkept hout
    · exact .inl ⟨hb, hphase⟩
  · exact .inr (.inl ⟨hb, hturn⟩)
  · exact .inr (.inr hturn)
  · exact absurd (putIn_outMem _ a v) hout
  · exact absurd rfl hout
  · exact absurd rfl hout
  · exact absurd rfl hout
  · exact absurd rfl hout

/-! ## What clears the outputs (R32, R160) -/

/-- A word that stands for a command has START or CLEAR set (R69). -/
theorem mod_four_ne_zero_of_command {p : Params} {d : Nat} {i : Instr} (h : decode p (.regwr 0 d) = .ok i) :
    d % 4 ≠ 0 := fun h0 =>
  nomatch (decodeCtrl_of_mod_four_eq_zero h0).symm.trans (fits_ok h).2

theorem whenHostOwns_next {s p u : State} (h : whenHostOwns s p = .next u) : u = p ∨ u = s := by
  rcases whenHostOwns_eq s p with ⟨-, e⟩ | ⟨-, e⟩ <;> cases e.symm.trans h
  · exact .inl rfl
  · exact .inr rfl

/-- A host access leaves `STATE` alone, unless it is a write to `CTRL` with START or CLEAR set, which leads to BUSY or IDLE. -/
theorem hostAccess_st {s u : State} {t : Turn} (ht : t.isHostAccess = true) (h : takeTurn t s = .next u) :
    u.st = s.st ∨ ((u.st = .busy ∨ u.st = .idle) ∧ ∃ d, t = .regWrite 0 d ∧ d % 4 ≠ 0) := by
  cases t with
  | core | convert | reset => cases ht
  | inWrite a v =>
    rcases runFetch_cases (.inwr a v) nofun s with ⟨i, hi, hrun⟩ | ⟨_, _, hrun⟩
    · cases (fits_ok hi).2
      rcases whenHostOwns_next (hrun.symm.trans h) with rfl | rfl
      · exact .inl (putIn_st s a v)
      · exact .inl rfl
    · cases hrun.symm.trans h; exact .inl rfl
  | inRead a =>
    cases h
    rcases hostReadBack_eq a s with ⟨-, hread⟩ | ⟨-, hread⟩ <;> rw [hread] <;> exact .inl rfl
  | regWrite r d =>
    rcases runFetch_cases (.regwr r d) nofun s with ⟨i, hi, hrun⟩ | ⟨_, _, hrun⟩
    · rcases decodeRegWrite_ok (fits_ok hi).2 with ⟨rfl, -, rfl⟩ | ⟨rfl, -, -, rfl⟩ | ⟨-, rfl⟩ <;>
        rcases whenHostOwns_next (hrun.symm.trans h) with rfl | rfl
      · exact .inr ⟨.inl rfl, d, rfl, mod_four_ne_zero_of_command hi⟩
      · exact .inl rfl
      · exact .inr ⟨.inr rfl, d, rfl, mod_four_ne_zero_of_command hi⟩
      · exact .inl rfl
      · exact .inl rfl
      · exact .inl rfl
    · cases hrun.symm.trans h; exact .inl rfl
  | regRead r => cases h; exact .inl (answerReg_st s _)
  | outRead a =>
    rcases runFetch_cases (.outrd a) nofun s with ⟨i, hi, hrun⟩ | ⟨_, _, hrun⟩
    · cases (fits_ok hi).2
      cases hrun.symm.trans h; exact .inl (answerByte_st s _)
    · cases hrun.symm.trans h; exact .inl rfl

/-- Settles O35: the outputs are read off `STATE`, which only START and CLEAR change among the host's accesses. -/
theorem outputsFallOnlyByStartOrClear : Obligations.OutputsFallOnlyByStartOrClear := by
  intro s t ts u ht h hchange
  rcases hostAccess_st (s := { s with turns := ts }) ht h with hst | ⟨hst | hst, hcommand⟩
  · simp [doneOutput, errOutput, hst] at hchange
  · exact ⟨by simp [doneOutput, hst], by simp [errOutput, hst], hcommand⟩
  · exact ⟨by simp [doneOutput, hst], by simp [errOutput, hst], hcommand⟩

end Sys2Proof.Machine
end

section
/-! PROOFS. 70_reset_and_hazards.md: the state after reset (R171 to R173), that no step from a state that meets the invariant stops the
machine, and the step counts of a transaction with the bound that ends every transaction (R182, R184). -/

namespace Sys2Proof.Machine

/-! ## Reset (R171 to R173) -/

/-- Settles O12: the event leaves the state that `State.resetBlock` names, whatever the state before it. -/
theorem resetEventClearsEverything : Obligations.ResetEventClearsEverything := by
  refine fun s ts => ⟨({ s with turns := ts } : State).resetBlock, rfl, ?_⟩
  simp [doneOutput, errOutput, Memory.read]

/-- Settles O13: the values are those of the definition; a buffer that lists no location holds no value. -/
theorem resetStateValues : Obligations.ResetStateValues :=
  ⟨rfl, rfl, rfl, rfl, rfl, rfl, rfl, rfl, rfl, rfl, rfl, rfl, rfl, rfl, rfl, rfl, rfl, rfl, rfl, rfl, rfl, rfl, rfl,
    fun _ => ⟨rfl, rfl⟩⟩

/-! ## No step stops the machine -/

/-- Every core turn answers a next state: while BUSY the phase code is not reserved. -/
theorem exists_coreTurn {s : State} (hs : s.CodesOk) : ∃ t, coreTurn s = .next t := by
  by_cases hb : s.st = .busy
  · obtain ⟨hphase, hmax, -⟩ := (codesOk_iff_of_busy hb).mp hs
    obtain ⟨i, t, hi, hexec⟩ := exists_core_operation hphase hmax
    exact ⟨t, (if_pos hb).trans ((runFetch_of_ok s hi).trans hexec)⟩
  · exact ⟨s, if_neg hb⟩

/-- Every class of a header answers a next state: none leads T.CONVERT out of the domain of `encode` (R125). -/
theorem exists_class (s : State) (p : Params) (n : Nat) (word : HeaderWord) :
    ∃ t, exec (decodeHeader p n word) s = .next t := by
  rcases decodeHeader_cases p n word with ⟨-, e⟩ | ⟨-, u, w, h, d, -, -, -, ⟨-, e⟩ | ⟨-, -, e⟩ | ⟨-, -, -, e⟩ |
    ⟨-, -, -, -, e⟩ | ⟨hw, hh, -, -, e⟩⟩ <;> rw [e]
  iterate 5 · exact ⟨_, rfl⟩
  · exact ⟨_, if_neg (not_or.mpr ⟨hw, hh⟩)⟩

/-- Every turn answers a next state, whoever takes it. -/
theorem exists_step_turn {s : State} (hs : s.CodesOk) (t : Turn) (ts : List Turn) :
    ∃ u, step { s with turns := t :: ts } = .next u := by
  cases t with
  | core => exact exists_coreTurn (s := { s with turns := ts }) hs
  | convert => exact exists_class { s with turns := ts } _ _ _
  | reset => exact ⟨_, rfl⟩
  | inWrite _ _ | inRead _ | regWrite _ _ | regRead _ | outRead _ => exact exists_step_hostAccess s ts rfl

/-- Settles O50: by the turn that comes next; of the invariant, only the coupling of `STATE` and `PHASE` is needed. -/
theorem noStepStops : Obligations.NoStepStops := by
  intro s hs
  cases hturns : s.turns with
  | nil => exact step_of_no_turns hturns ▸ exists_coreTurn hs.codes
  | cons t ts =>
    have hstep := exists_step_turn hs.codes t ts
    rwa [← hturns] at hstep

/-! ## Step counts (R182) -/

/-- The widest row takes the most steps. -/
theorem rowSteps_le (w : Byte) : rowSteps w.toNat ≤ 257 := by
  have := w.isLt
  rw [rowSteps, paddedBytesPerRow_eq, bytesPerRow_eq]
  omega

/-- The least count is that of T.TOOSMALL, the greatest that of an accepted input of 255 by 255 pixels. -/
theorem transactionSteps_class_bounds (p : Params) (n : Nat) (word : HeaderWord) :
    2 ≤ transactionSteps (decodeHeader p n word) ∧ transactionSteps (decodeHeader p n word) ≤ 65546 := by
  rcases decodeHeader_cases p n word with ⟨-, e⟩ | ⟨-, u, w, h, d, -, -, -, ⟨-, e⟩ | ⟨-, -, e⟩ | ⟨-, -, -, e⟩ |
    ⟨-, -, -, -, e⟩ | ⟨-, -, -, -, e⟩⟩ <;> rw [e]
  iterate 5 · simp [transactionSteps]
  · have hrows : h.toNat * rowSteps w.toNat ≤ 255 * 257 := Nat.mul_le_mul (Nat.le_of_lt_succ h.isLt) (rowSteps_le w)
    rw [transactionSteps_tConvert]
    omega

/-- Before its last step, a run of a BUSY block is BUSY. -/
theorem BusyRun.exists_busy {n k : Nat} {s t : State} (h : BusyRun n s t) (hk : k < n) :
    ∃ u, runSteps k s = .next u ∧ u.st = .busy := by
  induction h generalizing k with
  | done s => exact absurd hk (Nat.not_lt_zero k)
  | @next n s _ _ hb hstep _ ih =>
    cases k with
    | zero => exact ⟨s, rfl, hb⟩
    | succ k => rw [runSteps_succ hstep]; exact ih (Nat.lt_of_succ_lt_succ hk)

section
variable {s : State} (hb : s.st ≠ .busy)
include hb

/-- START is the first step of a run. -/
theorem runSteps_startTurn (k : Nat) :
    runSteps (k + 1) { s with turns := [startTurn] } = runSteps k ({ s with turns := [] } : State).begin :=
  runSteps_succ (step_startTurn hb []) k

/-- From H.START the core runs to DONE or ERROR in the steps that R182 counts after START, BUSY at each of them. -/
theorem exists_busyRun_to_end : ∃ n t, transactionSteps (decodeHeader s.params s.inLen (headerWord s.begin)) = n + 1
    ∧ BusyRun n ({ s with turns := [] } : State).begin t ∧ (t.st = .done ∨ t.st = .error) := by
  obtain ⟨n, t, hsteps, hrun, hexec⟩ := coreRunAgrees_class (s := { s with turns := [] }) hb rfl
  refine ⟨n, t, hsteps, hrun, ?_⟩
  rcases class_codes (s := { s with turns := [] }) hb hexec with ⟨herror, -⟩ | ⟨hdone, -⟩
  · exact .inr herror
  · exact .inl hdone

end

/-- Settles O57: START is the first of the steps that R182 counts, and the core's run to DONE or ERROR takes the others. -/
theorem transactionStepsAreBounded : Obligations.TransactionStepsAreBounded := by
  intro s i hb _ hi
  cases hi
  obtain ⟨n, t, hsteps, hrun, hend⟩ := exists_busyRun_to_end hb
  obtain ⟨hmin, hmax⟩ := transactionSteps_class_bounds s.params s.inLen (headerWord s.begin)
  refine ⟨hmin, hmax, ⟨t, ?_, ?_⟩, fun k h1 hk => ?_⟩
  · exact (congrArg (runSteps · _) hsteps).trans ((runSteps_startTurn hb n).trans hrun.runSteps_eq)
  · rcases hend with h | h <;> simp [h]
  · obtain ⟨j, rfl⟩ := Nat.exists_eq_add_one.mpr h1
    rw [runSteps_startTurn hb]
    exact hrun.exists_busy (Nat.lt_of_succ_lt_succ (hk.trans_eq hsteps))

/-- Settles O58: the count that R182 gives for the class of the input is within the bound. -/
theorem everyTransactionEnds : Obligations.EveryTransactionEnds := by
  intro s hb _
  obtain ⟨n, t, hsteps, hrun, hend⟩ := exists_busyRun_to_end hb
  obtain ⟨hmin, hmax⟩ := transactionSteps_class_bounds s.params s.inLen (headerWord s.begin)
  rw [hsteps] at hmin hmax
  exact ⟨n + 1, t, hmin, hmax, (runSteps_startTurn hb n).trans hrun.runSteps_eq, hend⟩

end Sys2Proof.Machine
end

section
/-! PROOFS. What a step does for each kind of turn: it runs the instruction that the turn's words decode to (R72, R135), and it
faults in a BUSY state whose phase code is reserved (R135, I9). -/

namespace Sys2Proof.Machine

/-! ## The core's turn while BUSY (R135) -/

theorem coreTurn_of_busy {s : State} (hb : s.st = .busy) : coreTurn s = runFetch (coreFetch s) s := if_pos hb

theorem coreTurn_of_busy_of_ok {s : State} (hb : s.st = .busy) {i : Instr} (hi : decode s.params (coreFetch s) = .ok i) :
    coreTurn s = exec i s := (coreTurn_of_busy hb).trans (runFetch_of_ok s hi)

/-- Settles O7: turn by turn; the turns to come have no part in what a word decodes to. -/
theorem stepRunsTheDecodedInstruction : Obligations.StepRunsTheDecodedInstruction := by
  intro s ts
  refine ⟨fun i hb hi => ⟨?core, ?noTurn⟩, fun i hi => ?convert, fun r d i hi => ?regWrite, fun a v i hi => ⟨?isWrite, ?inWrite⟩,
    fun r => ?regRead, fun a i hi => ⟨?isRead, ?outRead⟩⟩
  case core => exact coreTurn_of_busy_of_ok (s := { s with turns := ts }) hb hi
  case noTurn => exact coreTurn_of_busy_of_ok (s := { s with turns := [] }) hb hi
  case convert => exact runFetch_of_ok (f := classFetch s) { s with turns := ts } hi
  case regWrite => exact runFetch_of_ok { s with turns := ts } hi
  case isWrite => exact (Except.ok.inj (fits_ok hi).2).symm
  case inWrite => exact runFetch_of_ok { s with turns := ts } hi
  case regRead => exact runFetch_of_ok (f := .regrd r) { s with turns := ts } rfl
  case isRead => exact (Except.ok.inj (fits_ok hi).2).symm
  case outRead => exact runFetch_of_ok { s with turns := ts } hi

/-! ## Reserved phase codes (R71, R135) -/

theorem decode_coreFetch_of_reserved {s : State} (h : s.phase = 0 ∨ 12 ≤ s.phase.toNat) :
    decode s.params (coreFetch s) = .error (.reservedPhase s.phase) := by
  change decodePhase s.phase _ = _
  rcases h with hzero | hlarge
  · rw [hzero]; rfl
  · exact decodePhase_reserved _ hlarge

/-- Settles O9: the core's words decode to the error on which it faults. -/
theorem reservedPhaseFaults : Obligations.ReservedPhaseFaults := by
  intro s hb hphase hturns
  calc step s = runFetch (coreFetch s) s := (step_of_no_turns hturns).trans (coreTurn_of_busy hb)
    _ = onDecodeError (.reservedPhase s.phase) s := runFetch_of_error s (decode_coreFetch_of_reserved hphase)
    _ = .fault (.reservedPhase s.phase) := rfl

end Sys2Proof.Machine
end
